-- ==== Sys2Proof/Word.lean ====
section
/-! DEFINITION. The three bit-vector widths the spec computes with (`00_scope.md` R8: `u8`, `u16`, `u32`). -/

namespace Sys2Proof

/-- A buffer byte, a BCD byte, a GF(256) element (R8 `u8`). -/
abbrev Byte := BitVec 8

/-- A CRC-16 value (R8 `u16`). -/
abbrev Half := BitVec 16

/-- A register, a command word, an EDC value (R6: register width and command word width are 32 bits). -/
abbrev Word := BitVec 32

end Sys2Proof
end

