-- ==== Sys2Proof/Syntax.lean ====
section
/-! DEFINITION. The commands of `30_encoding.md` R96, one constructor per row of the opcode table, and the two
enumerations their fields range over (R12, R93, R94). -/

namespace Sys2Proof

/-- TrackMode, in the order of R93. -/
inductive TrackMode where
  | audio
  | cdMode1
  | cdMode2Formless
  | cdMode2Form1
  | cdMode2Form2
deriving DecidableEq, Repr

/-- SectorFieldTag, in the order of R94. -/
inductive FieldTag where
  | sync
  | header
  | subHeader
  | eccP
  | eccQ
  | ecc
  | edc
  | subchannel
  | userData
deriving DecidableEq, Repr

/-- One command of R96. The only operands in a command word are `MODE`, `TAG` and `BCD` (R95); all others
are in the `ARG` registers. -/
inductive Instr where
  | nop
  | crc16
  | edc
  | edcGen (mode : TrackMode)
  | edcChk (mode : TrackMode)
  | eccpGen (mode : TrackMode)
  | eccqGen (mode : TrackMode)
  | eccpChk (mode : TrackMode)
  | eccqChk (mode : TrackMode)
  | subDeint
  | subInt
  | qParse (bcd : Bool)
  | qBuild
  | subGen
  | bcd2bin
  | bin2bcd
  | lba2msf
  | msf2lba
  | secCheck
  | secBuild (mode : TrackMode)
  | layout (mode : TrackMode) (tag : FieldTag)
deriving DecidableEq, Repr

end Sys2Proof
end

