-- ==== Sys2Proof/WellFormed.lean ====
section
/-! DEFINITION. Which command words are well formed: the five tests of `30_encoding.md` R97, stated on the word
alone and apart from the decoder. A value of `Instr` needs no check of its own: its fields are enumerations, so
a reserved `MODE` or `TAG` has no term. -/

namespace Sys2Proof

/-- The five reasons of R97 for which a command word is illegal, in the order they are tested. -/
inductive IllegalWord where
  /-- Test 1: `w[31:16] != 0`. -/
  | zeroFieldSet
  /-- Test 2: `OPC` is a reserved value of R96. -/
  | reservedOpcode
  /-- Test 3: a field the command's format does not use is not 0. -/
  | unusedFieldSet
  /-- Test 4: the format uses `MODE` and `MODE` is 5, 6 or 7. -/
  | reservedMode
  /-- Test 5: the format uses `TAG` and `TAG` is 9 to 15. -/
  | reservedTag
deriving DecidableEq, Repr

/-- The four formats of R92. -/
inductive Format where
  | f0
  | fm
  | fmt
  | fb
deriving DecidableEq, Repr

/-- The mask of R92: the bits of a command word compared with the row's match value. -/
def Format.mask : Format → Word
  | .f0 => 0xFFFFFFFF#32
  | .fm => 0xFFFFF8FF#32
  | .fmt => 0xFFFF80FF#32
  | .fb => 0xFFFF7FFF#32

/-- R92: does the format use `MODE`? -/
def Format.usesMode : Format → Bool
  | .f0 => false
  | .fm => true
  | .fmt => true
  | .fb => false

/-- R92: does the format use `TAG`? -/
def Format.usesTag : Format → Bool
  | .fmt => true
  | _ => false

/-- The opcode map of R96 as data: each opcode with its format. Every other opcode is reserved. -/
def opcodeMap : List (Nat × Format) :=
  [(0x00, .f0), (0x01, .f0), (0x02, .f0), (0x03, .fm), (0x04, .fm),
   (0x08, .fm), (0x09, .fm), (0x0A, .fm), (0x0B, .fm),
   (0x10, .f0), (0x11, .f0), (0x12, .fb), (0x13, .f0), (0x14, .f0),
   (0x18, .f0), (0x19, .f0), (0x1A, .f0), (0x1B, .f0),
   (0x20, .f0), (0x21, .fm), (0x28, .fmt)]

/-- R97: the first of the five tests a command word fails, or `none` when the word is legal. `w` is taken as a
number; its fields are those of R91. -/
def illegality (w : Word) : Option IllegalWord :=
  let n := w.toNat
  if n / 2 ^ 16 ≠ 0 then some .zeroFieldSet
  else
    match opcodeMap.lookup (n % 2 ^ 8) with
    | none => some .reservedOpcode
    | some f =>
      if w &&& f.mask &&& 0x0000FF00#32 ≠ 0#32 then some .unusedFieldSet
      else if f.usesMode ∧ 5 ≤ n / 2 ^ 8 % 2 ^ 3 then some .reservedMode
      else if f.usesTag ∧ 9 ≤ n / 2 ^ 11 % 2 ^ 4 then some .reservedTag
      else none

end Sys2Proof
end

