-- ==== Sys2Proof/Decode.lean ====
section
/-! DEFINITION. The command word (`30_encoding.md` R90 to R99): the decoder, total on all 2^32 words and rejecting
by name, and the encoder. -/

namespace Sys2Proof

/-! ### Fields of the command word (R91) -/

/-- `OPC`, bits 7:0. -/
def opcField (w : Word) : Byte := w.extractLsb' 0 8

/-- `MODE`, bits 10:8. -/
def modeField (w : Word) : BitVec 3 := w.extractLsb' 8 3

/-- `TAG`, bits 14:11. -/
def tagField (w : Word) : BitVec 4 := w.extractLsb' 11 4

/-- `BCD`, bit 15. -/
def bcdField (w : Word) : Bool := w.getLsbD 15

/-- `ZERO`, bits 31:16. -/
def zeroField (w : Word) : Half := w.extractLsb' 16 16

/-- R93: the TrackMode a `MODE` value names; 5, 6, 7 are reserved. -/
def modeOfBits (b : BitVec 3) : Option TrackMode :=
  match b.toNat with
  | 0 => some .audio
  | 1 => some .cdMode1
  | 2 => some .cdMode2Formless
  | 3 => some .cdMode2Form1
  | 4 => some .cdMode2Form2
  | _ => none

/-- R93: the number of a TrackMode. -/
def modeBits : TrackMode → BitVec 3
  | .audio => 0#3
  | .cdMode1 => 1#3
  | .cdMode2Formless => 2#3
  | .cdMode2Form1 => 3#3
  | .cdMode2Form2 => 4#3

/-- R94: the SectorFieldTag a `TAG` value names; 9 to 15 are reserved. -/
def tagOfBits (b : BitVec 4) : Option FieldTag :=
  match b.toNat with
  | 0 => some .sync
  | 1 => some .header
  | 2 => some .subHeader
  | 3 => some .eccP
  | 4 => some .eccQ
  | 5 => some .ecc
  | 6 => some .edc
  | 7 => some .subchannel
  | 8 => some .userData
  | _ => none

/-- R94: the number of a SectorFieldTag. -/
def tagBits : FieldTag → BitVec 4
  | .sync => 0#4
  | .header => 1#4
  | .subHeader => 2#4
  | .eccP => 3#4
  | .eccQ => 4#4
  | .ecc => 5#4
  | .edc => 6#4
  | .subchannel => 7#4
  | .userData => 8#4

/-! ### The decoder -/

/-- Format F0 (R92): `w[15:8]` must be 0. -/
def decodeF0 (w : Word) (i : Instr) : Except IllegalWord Instr :=
  if w.extractLsb' 8 8 ≠ 0#8 then .error .unusedFieldSet else .ok i

/-- Format FM (R92): `w[15:11]` must be 0 and `MODE` must name a TrackMode. -/
def decodeFM (w : Word) (mk : TrackMode → Instr) : Except IllegalWord Instr :=
  if w.extractLsb' 11 5 ≠ 0#5 then .error .unusedFieldSet
  else
    match modeOfBits (modeField w) with
    | none => .error .reservedMode
    | some m => .ok (mk m)

/-- Format FMT (R92): `w[15]` must be 0, and `MODE`, then `TAG`, must name a TrackMode and a SectorFieldTag. -/
def decodeFMT (w : Word) (mk : TrackMode → FieldTag → Instr) : Except IllegalWord Instr :=
  if bcdField w then .error .unusedFieldSet
  else
    match modeOfBits (modeField w) with
    | none => .error .reservedMode
    | some m =>
      match tagOfBits (tagField w) with
      | none => .error .reservedTag
      | some t => .ok (mk m t)

/-- Format FB (R92): `w[14:8]` must be 0. -/
def decodeFB (w : Word) (mk : Bool → Instr) : Except IllegalWord Instr :=
  if w.extractLsb' 8 7 ≠ 0#7 then .error .unusedFieldSet else .ok (mk (bcdField w))

/-- R96 with the tests of R97 in their order: `ZERO`, the opcode, the format's own tests. -/
def decode (w : Word) : Except IllegalWord Instr :=
  if zeroField w ≠ 0#16 then .error .zeroFieldSet
  else
    match (opcField w).toNat with
    | 0x00 => decodeF0 w .nop
    | 0x01 => decodeF0 w .crc16
    | 0x02 => decodeF0 w .edc
    | 0x03 => decodeFM w .edcGen
    | 0x04 => decodeFM w .edcChk
    | 0x08 => decodeFM w .eccpGen
    | 0x09 => decodeFM w .eccqGen
    | 0x0A => decodeFM w .eccpChk
    | 0x0B => decodeFM w .eccqChk
    | 0x10 => decodeF0 w .subDeint
    | 0x11 => decodeF0 w .subInt
    | 0x12 => decodeFB w .qParse
    | 0x13 => decodeF0 w .qBuild
    | 0x14 => decodeF0 w .subGen
    | 0x18 => decodeF0 w .bcd2bin
    | 0x19 => decodeF0 w .bin2bcd
    | 0x1A => decodeF0 w .lba2msf
    | 0x1B => decodeF0 w .msf2lba
    | 0x20 => decodeF0 w .secCheck
    | 0x21 => decodeFM w .secBuild
    | 0x28 => decodeFMT w .layout
    | _ => .error .reservedOpcode

/-- What the decoder reads from an instruction whose bits are `w`, of which `nbits` are given and the bits above
them are 0. A command is one 32-bit register value (R90), so there is no byte order to lay it out in (R64). -/
def decodeTableWord (nbits w : Nat) : Option Instr :=
  match decode (BitVec.ofNat 32 (w % 2 ^ nbits)) with
  | .ok i => some i
  | .error _ => none

/-! ### The encoder -/

/-- The opcode of R96. -/
def opcode : Instr → Byte
  | .nop => 0x00#8
  | .crc16 => 0x01#8
  | .edc => 0x02#8
  | .edcGen _ => 0x03#8
  | .edcChk _ => 0x04#8
  | .eccpGen _ => 0x08#8
  | .eccqGen _ => 0x09#8
  | .eccpChk _ => 0x0A#8
  | .eccqChk _ => 0x0B#8
  | .subDeint => 0x10#8
  | .subInt => 0x11#8
  | .qParse _ => 0x12#8
  | .qBuild => 0x13#8
  | .subGen => 0x14#8
  | .bcd2bin => 0x18#8
  | .bin2bcd => 0x19#8
  | .lba2msf => 0x1A#8
  | .msf2lba => 0x1B#8
  | .secCheck => 0x20#8
  | .secBuild _ => 0x21#8
  | .layout _ _ => 0x28#8

/-- The format of R96. -/
def formatOf : Instr → Format
  | .nop | .crc16 | .edc | .subDeint | .subInt | .qBuild | .subGen | .bcd2bin | .bin2bcd | .lba2msf | .msf2lba
  | .secCheck => .f0
  | .edcGen _ | .edcChk _ | .eccpGen _ | .eccqGen _ | .eccpChk _ | .eccqChk _ | .secBuild _ => .fm
  | .layout _ _ => .fmt
  | .qParse _ => .fb

/-- The word of an opcode and its fields, `ZERO` clear (R91): bits 31:16, then `BCD`, `TAG`, `MODE`, `OPC`. -/
def encodeFields (bcd : Bool) (tag : BitVec 4) (mode : BitVec 3) (opc : Byte) : Word :=
  0#16 ++ BitVec.ofBool bcd ++ tag ++ mode ++ opc

/-- R99: "The encoded word is `OPC | MODE << 8 | TAG << 11 | BCD << 15`", an unused field being 0 (R91). -/
def encode (i : Instr) : Word :=
  match i with
  | .edcGen m | .edcChk m | .eccpGen m | .eccqGen m | .eccpChk m | .eccqChk m | .secBuild m =>
      encodeFields false 0#4 (modeBits m) (opcode i)
  | .layout m t => encodeFields false (tagBits t) (modeBits m) (opcode i)
  | .qParse b => encodeFields b 0#4 0#3 (opcode i)
  | .nop | .crc16 | .edc | .subDeint | .subInt | .qBuild | .subGen | .bcd2bin | .bin2bcd | .lba2msf | .msf2lba
  | .secCheck => encodeFields false 0#4 0#3 (opcode i)

end Sys2Proof
end

