-- ==== Sys2Proof/Config.lean ====
section
/-! DEFINITION. What the spec leaves to the implementation: the open parameters of `00_scope.md` R7 and the
unspecified bytes of `10_state.md` R36. -/

namespace Sys2Proof

/-- `CRC16_VARIANT` (R7, R120 to R122): which 16-bit CRC the Q unit uses. -/
inductive Crc16Variant where
  | redbook
  | kermit
deriving DecidableEq, Repr

/-- `PREGAP_MODEL` (R7, R197): where SUB.GEN places the end of the pregap. -/
inductive PregapModel where
  | startPlusPregap
  | start
deriving DecidableEq, Repr

/-- `SUBHDR_DUP` (R7, R253): which copy of the Mode 2 sub-header SEC.BUILD copies over the other. -/
inductive SubhdrDup where
  | secondToFirst
  | firstToSecond
deriving DecidableEq, Repr

/-- The open parameters of R7, carried by every state so that every statement about all states holds for
all of them. R21: they are configuration and cannot change while the block runs. `LATENCY(cmd)` is not a
number here: the agenda of the state says when a command completes (notes/assumptions/3.md). -/
structure Config where
  /-- `BASE` (R61): where the register window sits in the HOST's address space. -/
  base         : Nat
  crc16Variant : Crc16Variant
  pregapModel  : PregapModel
  subhdrDup    : SubhdrDup
deriving DecidableEq, Repr

/-- The defaults of R7. `BASE` has none there: 0 is the model's DESIGN CHOICE (notes/assumptions/5.md). -/
def Config.default : Config :=
  { base := 0, crc16Variant := .redbook, pregapModel := .startPlusPregap, subhdrDup := .secondToFirst }

/-- R36, R320, U4: what the byte at a block offset holds between a reset and the first write to it. A free
value with no body: the first argument numbers the reset, the second is the block offset. -/
opaque Config.unspecifiedByte : Nat → Nat → Byte

end Sys2Proof
end

