-- ==== Sys2Proof/Machine/State.lean ====
section
/-! DEFINITION. The state of one CDC-CORE instance (`10_state.md` R20), the two ways a step can stop, and the state
after reset (R36, R320). -/

namespace Sys2Proof.Machine

/-- The bytes of the three buffers that have been written since reset, keyed by block offset (R61), offsets
strictly rising. An offset that is not listed holds no written byte. -/
abbrev Memory := List Host.Cell

/-! ### What the HOST and the platform can do to the block -/

/-- The width of a HOST access (R63). -/
inductive Width where
  | byte
  | half
  | word
deriving DecidableEq, Repr

/-- One HOST access, at an address of the HOST's address space (R60: `BASE + offset`). A write of a byte carries
it in bits 7:0 of `data`. -/
inductive Access where
  | read (width : Width) (addr : Nat)
  | write (width : Width) (addr : Nat) (data : Word)
deriving DecidableEq, Repr

/-- Whose turn it is: the HOST makes an access, the ENGINE completes the command it runs, or the platform resets
the block (R5, R320). -/
inductive Turn where
  | host (access : Access)
  | engine
  | reset
deriving DecidableEq, Repr

/-- A register of the window (R61). -/
inductive Reg where
  | cmd
  | status
  | arg (i : Fin 4)
  | res (i : Fin 4)
deriving DecidableEq, Repr

/-- Error codes of `STATUS.ERR` (R291) that a command can raise. Codes 4 to 15 are never produced. -/
inductive ErrorKind where
  | invalidInput
  | unsupportedField
  | illegalCommand
deriving DecidableEq, Repr

/-! ### How a step can stop -/

/-- The machine itself has no fault: a failing command reports an error code (R290, R294). -/
inductive Fault where
  /-- Raised by a HOST access to an address outside `[BASE, BASE + 0x3000)`, where the block has nothing (R60).
  Safe: the access is not one to this block. -/
  | outsideWindow (addr : Nat)
deriving DecidableEq, Repr

/-- What the spec gives no meaning and tells a model to refuse (R301). No command ends in one. -/
inductive Refusal where
  /-- Raised by `exec` for an instruction without a meaning; no arm answers with it. Safe. -/
  | notModelled (mnemonic : String)
  /-- Raised by a HOST access other than a read of `STATUS`, from the write of `CMD` until a read of `STATUS` has
  returned `BUSY = 0` (R25, R323, U6). Safe. -/
  | busy (addr : Nat)
  /-- Raised by a HOST access to a hole of the address map (R62, U5). Safe. -/
  | hole (addr : Nat)
  /-- Raised by a misaligned register access, a register access that is not 32 bits wide, or a buffer access wider
  than a byte (R63, U5). Safe. -/
  | badAccess (addr : Nat)
deriving DecidableEq, Repr

/-! ### The state -/

/-- R20 in full, then the model's own bookkeeping. The four read-only tables of R32 are constants in every state
and so are definitions (`eccF`, `eccB`, `edcT`, `crc16T`), not fields (notes/assumptions/8.md). -/
structure State where
  /-- `ARG0` to `ARG3` (R22): written by the HOST, read by the ENGINE. -/
  arg0   : Word
  arg1   : Word
  arg2   : Word
  arg3   : Word
  /-- `RES0` to `RES3` (R24): written by the ENGINE. -/
  res0   : Word
  res1   : Word
  res2   : Word
  res3   : Word
  /-- `STATUS` (R26): `BUSY`, `DONE`, `ERR`. -/
  status : Word
  /-- `CMD` (R25): the word of the command being executed, `none` when no command is pending. -/
  cmd    : Option Word
  /-- The written bytes of `SEC`, `SUBR` and `SUBD` (R29 to R31). -/
  mem    : Memory
  /-- R323: the HOST has written `CMD`, and no read of `STATUS` has returned `BUSY = 0` since. The block does not hold
  it; it is what the HOST has yet to do before its other accesses have a meaning (notes/assumptions/7.md). -/
  unpolled : Bool
  /-- The open parameters (R7); no step changes them (R21). -/
  cfg    : Config
  /-- The model's own: how many resets have happened, so that each draws its unspecified bytes afresh (R320). -/
  resets : Nat
  /-- The model's own: the turns of HOST, ENGINE and platform to come, in order (notes/assumptions/1.md). -/
  agenda : List Turn
  /-- The model's own: what the HOST's reads have returned, newest first. -/
  seen   : List Word
deriving DecidableEq, Repr

/-- R36, R320: registers and `STATUS` zero, no command pending, no byte of a buffer written; nothing on the agenda,
because nothing executes until the HOST writes `CMD`. -/
def State.reset : State :=
  { arg0 := 0#32, arg1 := 0#32, arg2 := 0#32, arg3 := 0#32
    res0 := 0#32, res1 := 0#32, res2 := 0#32, res3 := 0#32
    status := 0#32, cmd := none, mem := [], unpolled := false
    cfg := Config.default, resets := 0, agenda := [], seen := [] }

end Sys2Proof.Machine
end

