-- ==== Sys2Proof/Machine/Flags.lean ====
section
/-! DEFINITION. Every flag and packed field the ENGINE writes: the fields of `STATUS` (`10_state.md` R26), optional
results (`00_scope.md` R11) and the flag words of R28. -/

namespace Sys2Proof.Machine

/-! ### STATUS (R26) -/

/-- The value of `STATUS` with the given `ERR`, `DONE` and `BUSY`; bits 3:2 and 31:8 are reserved and read 0. -/
def statusWord (err : BitVec 4) (done busy : Bool) : Word :=
  0#24 ++ err ++ 0#2 ++ BitVec.ofBool done ++ BitVec.ofBool busy

/-- The code of an error kind (R291). -/
def errorCode : ErrorKind → BitVec 4
  | .invalidInput => 1#4
  | .unsupportedField => 2#4
  | .illegalCommand => 3#4

/-- `STATUS.BUSY`, bit 0. -/
def State.busy (s : State) : Bool := s.status.getLsbD 0

/-- `STATUS.DONE`, bit 1. -/
def State.done (s : State) : Bool := s.status.getLsbD 1

/-- `STATUS.ERR`, bits 7:4. -/
def State.err (s : State) : BitVec 4 := s.status.extractLsb' 4 4

/-! ### Flag words of the commands (R28) -/

/-- R11: an optional result as the 2-bit field `{present, value}`; `0b01` is never produced. -/
def optBits : Option Bool → BitVec 2
  | none => 0b00#2
  | some v => 1#1 ++ BitVec.ofBool v

/-- `zext_32` of one bit (R8). -/
def flagWord (b : Bool) : Word := 0#31 ++ BitVec.ofBool b

/-- `RES0` of EDC.CHK (R131): `{stored_zero, match}`. -/
def edcFlags (storedZero isMatch : Bool) : Word := 0#30 ++ BitVec.ofBool storedZero ++ BitVec.ofBool isMatch

/-- `RES0` of Q.PARSE (R188, R191): `{calc, 0b000, converted, crc_ok, adr_known, area, control, adr}`. -/
def qFlags (crcCalc : Half) (converted crcOk adrKnown : Bool) (area : BitVec 2) (control adr : BitVec 4) : Word :=
  crcCalc ++ 0b000#3 ++ BitVec.ofBool converted ++ BitVec.ofBool crcOk ++ BitVec.ofBool adrKnown ++ area ++ control
    ++ adr

/-- `RES0` of SUB.GEN (R196): `{in_pregap, q[10], q[11]}`. -/
def subGenFlags (inPregap : Bool) (crc : Half) : Word := 0#15 ++ BitVec.ofBool inPregap ++ crc

/-- `RES0` of SEC.CHECK (R243, R249): `{0 (21 bits), class, edc, ecc_q, ecc_p, overall}`. -/
def sectorFlags (cls : BitVec 3) (edc eccQ eccP overall : Option Bool) : Word :=
  0#21 ++ cls ++ optBits edc ++ optBits eccQ ++ optBits eccP ++ optBits overall

/-- Three bytes in a result register, bits 31:24 clear: `{0x00, b2, b1, b0}` (R188, R226). -/
def packBytes (b2 b1 b0 : Byte) : Word := 0x00#8 ++ b2 ++ b1 ++ b0

end Sys2Proof.Machine
end

