-- ==== Sys2Proof/Machine/Ops.lean ====
section
/-! DEFINITION. The operations every command shares: bytes of the buffers, starting and completing a command, and
raising an error, which takes the place of an exception here (`60_exceptions.md` R294). There is no return from it
to model (R295). -/

namespace Sys2Proof.Machine

/-! ### The byte store -/

/-- The byte written at offset `k`, if one has been. -/
def Memory.get? (m : Memory) (k : Nat) : Option Byte :=
  match m.dropWhile (fun c => decide (c.1 < k)) with
  | [] => none
  | c :: _ => if c.1 = k then some c.2 else none

/-- The `n` bytes from offset `k` on, `fill` standing for the bytes nothing has written. One walk along the
store; `Laws/Memory.lean` shows that it is `Memory.get?` at each offset. -/
def Memory.readRun (fill : Nat → Byte) (m : Memory) (k : Nat) : Nat → List Byte
  | 0 => []
  | n + 1 =>
    ((Memory.get? (m.dropWhile fun c => decide (c.1 < k)) k).getD (fill k)) ::
      Memory.readRun fill (m.dropWhile fun c => decide (c.1 < k)) (k + 1) n

/-- The cells of consecutive bytes from offset `k` on. -/
def cellsFrom (k : Nat) : List Byte → Memory
  | [] => []
  | b :: bs => (k, b) :: cellsFrom (k + 1) bs

/-- The store with the bytes `bs` at the offsets from `k` on. -/
def Memory.splice (m : Memory) (k : Nat) (bs : List Byte) : Memory :=
  m.takeWhile (fun c => decide (c.1 < k)) ++ cellsFrom k bs ++
    m.dropWhile (fun c => decide (c.1 < k + bs.length))

/-- The canonical form: offsets strictly rising. An unlisted offset holds no value, so no entry can repeat it, and
equal stores are equal lists. -/
def Memory.wf : Memory → Bool
  | [] => true
  | [_] => true
  | c :: d :: m => decide (c.1 < d.1) && Memory.wf (d :: m)

/-! ### The address map of the buffers (R61) -/

/-- Offset of `SEC[0]`. -/
def secBase : Nat := 0x1000

/-- Offset of `SUBR[0]`. -/
def subrBase : Nat := 0x2000

/-- Offset of `SUBD[0]`. -/
def subdBase : Nat := 0x2080

/-- `SECTOR_BYTES` (R6). -/
def sectorBytes : Nat := 2352

/-- `SUB_BYTES` (R6). -/
def subBytes : Nat := 96

/-- R61: is the offset one of a buffer byte? -/
def inBuffer (off : Nat) : Bool :=
  (decide (secBase ≤ off) && decide (off < secBase + sectorBytes)) ||
  (decide (subrBase ≤ off) && decide (off < subrBase + subBytes)) ||
  (decide (subdBase ≤ off) && decide (off < subdBase + subBytes))

/-! ### Reading and writing buffer bytes (R9, R69) -/

/-- `MemRead(off, 1)` (R9). A byte nothing has written since reset is a free value (R36, R322). -/
def State.byte (s : State) (off : Nat) : Byte :=
  (s.mem.get? off).getD (Config.unspecifiedByte s.resets off)

/-- The `n` bytes from offset `off` on. -/
def State.bytes (s : State) (off n : Nat) : List Byte :=
  s.mem.readRun (Config.unspecifiedByte s.resets) off n

/-- `MemWrite` of consecutive single bytes (R9). -/
def State.store (s : State) (off : Nat) (bs : List Byte) : State :=
  { s with mem := s.mem.splice off bs }

/-- `SEC[i]` (R9). -/
def State.sec (s : State) (i : Nat) : Byte := s.byte (secBase + i)

/-- `SUBR[i]` (R9). -/
def State.subr (s : State) (i : Nat) : Byte := s.byte (subrBase + i)

/-- `SUBD[i]` (R9). -/
def State.subd (s : State) (i : Nat) : Byte := s.byte (subdBase + i)

/-- `SEC[i .. i+n)` (R9). -/
def State.secRun (s : State) (i n : Nat) : List Byte := s.bytes (secBase + i) n

/-- `SUBR[0..96)` (R30). -/
def State.subrAll (s : State) : List Byte := s.bytes subrBase subBytes

/-- `SUBD[i .. i+n)` (R9). -/
def State.subdRun (s : State) (i n : Nat) : List Byte := s.bytes (subdBase + i) n

/-- `SEC[i ..] <- bs` (R9). -/
def State.storeSec (s : State) (i : Nat) (bs : List Byte) : State := s.store (secBase + i) bs

/-- `SUBR[0 ..] <- bs` (R9). -/
def State.storeSubr (s : State) (bs : List Byte) : State := s.store subrBase bs

/-- `SUBD[i ..] <- bs` (R9). -/
def State.storeSubd (s : State) (i : Nat) (bs : List Byte) : State := s.store (subdBase + i) bs

/-- A `u32` as four bytes, bits 7:0 first: the order of the stored EDC (R67) and of a register on a byte bus (R64). -/
def leBytes (w : Word) : List Byte :=
  [w.extractLsb' 0 8, w.extractLsb' 8 8, w.extractLsb' 16 8, w.extractLsb' 24 8]

/-- The `u32` of four bytes in that order; the inverse of `leBytes`. -/
def leWord (b0 b1 b2 b3 : Byte) : Word := b3 ++ b2 ++ b1 ++ b0

/-- The `u32` stored little-endian at `SEC[i .. i+4)` (R67). -/
def State.secWord (s : State) (i : Nat) : Word :=
  leWord (s.sec i) (s.sec (i + 1)) (s.sec (i + 2)) (s.sec (i + 3))

/-! ### Starting, completing and failing a command -/

/-- A HOST write of `CMD` (R25, R26): the command is pending, `BUSY = 1`, `DONE = 0` and, as R34 says, `ERR = 0`. The
HOST now owes a poll (R323). -/
def State.start (s : State) (w : Word) : State :=
  { s with cmd := some w, status := statusWord 0#4 false true, unpolled := true }

/-- R294: a command that completes without error. Every command writes all four `RES` registers (R24). -/
def State.finish (s : State) (r0 r1 r2 r3 : Word) : State :=
  { s with
    res0 := r0, res1 := r1, res2 := r2, res3 := r3
    status := statusWord 0#4 true false, cmd := none }

/-- R294: `raise K` (R10), the one way a command fails. `STATUS.ERR` takes the code, `BUSY` clears, `DONE` sets, the
`RES` registers become 0, and nothing else changes: nothing is saved and nothing is vectored. -/
def State.raise (s : State) (k : ErrorKind) : State :=
  { s with
    res0 := 0#32, res1 := 0#32, res2 := 0#32, res3 := 0#32
    status := statusWord (errorCode k) true false, cmd := none }

end Sys2Proof.Machine
end

