-- ==== Sys2Proof/Machine/Operands.lean ====
section
/-! DEFINITION. Every operand form of `30_encoding.md` R95: an `ARG` register as `u32`, as `s32`, or as packed
fields. -/

namespace Sys2Proof.Machine

/-- `ARG[i]` (R9, R22). -/
def State.arg (s : State) (i : Fin 4) : Word :=
  match i with
  | 0 => s.arg0
  | 1 => s.arg1
  | 2 => s.arg2
  | 3 => s.arg3

/-- `RES[i]` (R24). -/
def State.res (s : State) (i : Fin 4) : Word :=
  match i with
  | 0 => s.res0
  | 1 => s.res1
  | 2 => s.res2
  | 3 => s.res3

/-- A HOST write of `ARG[i]` (R22). -/
def State.setArg (s : State) (i : Fin 4) (v : Word) : State :=
  match i with
  | 0 => { s with arg0 := v }
  | 1 => { s with arg1 := v }
  | 2 => { s with arg2 := v }
  | 3 => { s with arg3 := v }

/-- R95: `ARG[i]` read as `u32`. -/
def State.argU (s : State) (i : Fin 4) : Nat := (s.arg i).toNat

/-- R95: `ARG[i]` read as `s32`, an integer in `[-2^31, 2^31)`. -/
def State.argS (s : State) (i : Fin 4) : Int := (s.arg i).toInt

/-- R95: a packed byte field of `ARG[i]`, its lowest bit at `lo`. -/
def State.argByte (s : State) (i : Fin 4) (lo : Nat) : Byte := (s.arg i).extractLsb' lo 8

/-- R95: a packed 4-bit field of `ARG[i]`, its lowest bit at `lo`. -/
def State.argNibble (s : State) (i : Fin 4) (lo : Nat) : BitVec 4 := (s.arg i).extractLsb' lo 4

end Sys2Proof.Machine
end

