-- ==== Sys2Proof/Machine/Checksum.lean ====
section
/-! DEFINITION. The CRC-16 and EDC unit (`40_crc_edc.md`): its tables, its two functions, and CRC16, EDC, EDC.GEN,
EDC.CHK. -/

namespace Sys2Proof.Machine

/-! ### CRC-16 (R120 to R122) -/

/-- One of the eight shifts that fill an entry of `CRC16_T`: R121 most significant bit first with 0x1021, R122 least
significant bit first with 0x8408. -/
def crc16Shift (v : Crc16Variant) (c : Half) : Half :=
  match v with
  | .redbook => (c <<< 1) ^^^ (if c.getLsbD 15 then 0x1021#16 else 0#16)
  | .kermit => (c >>> 1) ^^^ (if c.getLsbD 0 then 0x8408#16 else 0#16)

/-- What an entry of `CRC16_T` starts from: `i << 8` (R121) or `i` (R122). -/
def crc16Start (v : Crc16Variant) (i : Byte) : Half :=
  match v with
  | .redbook => i ++ 0#8
  | .kermit => 0#8 ++ i

/-- `CRC16_T[i]` (R121, R122). -/
def crc16T (v : Crc16Variant) (i : Byte) : Half :=
  Nat.repeat (crc16Shift v) 8 (crc16Start v i)

/-- The update of `Crc16` by one byte (R121, R122). -/
def crc16Step (v : Crc16Variant) (c : Half) (x : Byte) : Half :=
  match v with
  | .redbook => (c <<< 8) ^^^ crc16T v (c.extractLsb' 8 8 ^^^ x)
  | .kermit => (c >>> 8) ^^^ crc16T v (c.extractLsb' 0 8 ^^^ x)

/-- What `Crc16` does to the register at the end: the complement of R121; R122 has none. -/
def crc16Final (v : Crc16Variant) (c : Half) : Half :=
  match v with
  | .redbook => c ^^^ 0xFFFF#16
  | .kermit => c

/-- `Crc16(buf)` (R120), the register starting from 0. -/
def crc16 (v : Crc16Variant) (buf : List Byte) : Half :=
  crc16Final v (buf.foldl (crc16Step v) 0#16)

/-! ### EDC (R124, R125) -/

/-- One of the eight shifts that fill an entry of `EDC_T` (R124). -/
def edcShift (e : Word) : Word :=
  (e >>> 1) ^^^ (if e.getLsbD 0 then 0xD8018001#32 else 0#32)

/-- `EDC_T[i]` (R124). -/
def edcT (i : Byte) : Word := Nat.repeat edcShift 8 (0#24 ++ i)

/-- The update of `Edc` by one byte (R125). -/
def edcStep (e : Word) (x : Byte) : Word :=
  (e >>> 8) ^^^ edcT (e.extractLsb' 0 8 ^^^ x)

/-- `Edc(seed, buf)` (R125): no initial and no final inversion. -/
def edc (seed : Word) (buf : List Byte) : Word := buf.foldl edcStep seed

/-- Where the EDC of a mode is (R126): the first covered index, how many bytes are covered, where it is stored. -/
structure EdcField where
  first  : Nat
  count  : Nat
  stored : Nat
deriving DecidableEq, Repr

/-- R126; `none` for the modes in which no EDC exists. -/
def edcField : TrackMode → Option EdcField
  | .audio => none
  | .cdMode1 => some { first := 0x000, count := 2064, stored := 0x810 }
  | .cdMode2Formless => none
  | .cdMode2Form1 => some { first := 0x010, count := 2056, stored := 0x818 }
  | .cdMode2Form2 => some { first := 0x010, count := 2332, stored := 0x92C }

/-- `SectorEdc(mode)` (R129), of the field `f` of the mode: the seed is 0. -/
def sectorEdc (f : EdcField) (s : State) : Word := edc 0#32 (s.secRun f.first f.count)

/-! ### Commands -/

/-- CRC16 (R127). -/
def execCrc16 (s : State) : Host.Outcome State Fault Refusal :=
  let a := s.argU 0
  let n := s.argU 1
  if a > subBytes ∨ n > subBytes - a then .next (s.raise .invalidInput)
  else .next (s.finish (0#16 ++ crc16 s.cfg.crc16Variant (s.subdRun a n)) 0#32 0#32 0#32)

/-- EDC (R128). -/
def execEdc (s : State) : Host.Outcome State Fault Refusal :=
  let a := s.argU 1
  let n := s.argU 2
  if a > sectorBytes ∨ n > sectorBytes - a then .next (s.raise .invalidInput)
  else .next (s.finish (edc (s.arg 0) (s.secRun a n)) 0#32 0#32 0#32)

/-- EDC.GEN (R130). -/
def execEdcGen (mode : TrackMode) (s : State) : Host.Outcome State Fault Refusal :=
  match edcField mode with
  | none => .next (s.raise .unsupportedField)
  | some f => .next ((s.storeSec f.stored (leBytes (sectorEdc f s))).finish (sectorEdc f s) 0#32 0#32 0#32)

/-- EDC.CHK (R131). -/
def execEdcChk (mode : TrackMode) (s : State) : Host.Outcome State Fault Refusal :=
  match edcField mode with
  | none => .next (s.raise .unsupportedField)
  | some f =>
    let e := sectorEdc f s
    let st := s.secWord f.stored
    .next (s.finish (edcFlags (st == 0#32) (e == st)) e st 0#32)

end Sys2Proof.Machine
end

