-- ==== Sys2Proof/Machine/Control.lean ====
section
/-! DEFINITION. NOP (`30_encoding.md` R103). -/

namespace Sys2Proof.Machine

/-- NOP (R103): all `RES` registers 0, no error, no buffer touched. -/
def execNop (s : State) : Host.Outcome State Fault Refusal :=
  .next (s.finish 0#32 0#32 0#32 0#32)

end Sys2Proof.Machine
end

