-- ==== Sys2Proof/Machine/Ecc.lean ====
section
/-! DEFINITION. GF(256) tables and the ECC P/Q unit (`41_ecc.md`): ECCP.GEN, ECCQ.GEN, ECCP.CHK, ECCQ.CHK. -/

namespace Sys2Proof.Machine

/-! ### The field tables -/

/-- `ECC_F[i]` (R150): `i << 1`, reduced by 0x11D when bit 7 of `i` is 1. -/
def eccF (i : Byte) : Byte := (i <<< 1) ^^^ (if i.getLsbD 7 then 0x1D#8 else 0#8)

/-- `ECC_B[y]` (R151): the `i` with `i ^ ECC_F[i] = y`. -/
def eccB (y : Byte) : Byte :=
  (((List.range 256).map (BitVec.ofNat 8)).find? fun i => i ^^^ eccF i == y).getD 0#8

/-! ### The parity computation -/

/-- The parameters of R155. -/
structure EccParams where
  majorCount : Nat
  minorCount : Nat
  majorMult  : Nat
  minorInc   : Nat
deriving DecidableEq, Repr

/-- `P_PARAMS` (R6, R156). -/
def pParams : EccParams := { majorCount := 86, minorCount := 24, majorMult := 2, minorInc := 86 }

/-- `Q_PARAMS` (R6, R156). -/
def qParams : EccParams := { majorCount := 52, minorCount := 43, majorMult := 86, minorInc := 88 }

/-- R157: the modes in which the ECC exists. -/
def hasEcc : TrackMode → Bool
  | .audio => false
  | .cdMode1 => true
  | .cdMode2Formless => false
  | .cdMode2Form1 => true
  | .cdMode2Form2 => false

/-- The address `A(mode, 0..3)` (R154): four zero bytes in `CdMode2Form1`, else `SEC[12..16)`. -/
def eccAddress (mode : TrackMode) (s : State) : List Byte :=
  match mode with
  | .cdMode2Form1 => [0#8, 0#8, 0#8, 0#8]
  | _ => s.secRun 12 4

/-- The logical bytes `L(mode, ·)` (R154): the address, then `SEC[16..2352)`. -/
def logicalBytes (mode : TrackMode) (s : State) : List Byte := eccAddress mode s ++ s.secRun 16 2336

/-- The start index of row `m` (R155). -/
def eccStart (p : EccParams) (m : Nat) : Nat := m / 2 * p.majorMult + m % 2

/-- The next index of a row, wrapping at `size = major_count * minor_count` (R155). -/
def eccNext (p : EccParams) (idx : Nat) : Nat :=
  if idx + p.minorInc ≥ p.majorCount * p.minorCount then idx + p.minorInc - p.majorCount * p.minorCount
  else idx + p.minorInc

/-- The logical indices `n` steps of a row visit from `idx` on, in order (R155, R156). -/
def eccVisits (p : EccParams) (idx : Nat) : Nat → List Nat
  | 0 => []
  | n + 1 => idx :: eccVisits p (eccNext p idx) n

/-- One step of the row's accumulation of `(a, b)` (R155). -/
def eccStep (acc : Byte × Byte) (t : Byte) : Byte × Byte := (eccF (acc.1 ^^^ t), acc.2 ^^^ t)

/-- The pair of a row from its final `(a, b)` (R155): `x = ECC_B[ECC_F[a] ^ b]`, `y = x ^ b`. -/
def eccClose (acc : Byte × Byte) : Byte × Byte :=
  let x := eccB (eccF acc.1 ^^^ acc.2)
  (x, x ^^^ acc.2)

/-- The data bytes of row `m` of the logical bytes `l`, in the order R155 visits them. -/
def eccRow (l : List Byte) (p : EccParams) (m : Nat) : List Byte :=
  (eccVisits p (eccStart p m) p.minorCount).map fun i => l.getD i 0#8

/-- `EccPair` (R155) of row `m` of the logical bytes `l`. -/
def eccPair (l : List Byte) (p : EccParams) (m : Nat) : Byte × Byte :=
  eccClose ((eccRow l p m).foldl eccStep (0#8, 0#8))

/-- `EccField` (R159) of the logical bytes `l`: first bytes of all rows, then second bytes (R158). -/
def eccField (l : List Byte) (p : EccParams) : List Byte :=
  let pairs := (List.range p.majorCount).map (eccPair l p)
  pairs.map Prod.fst ++ pairs.map Prod.snd

/-- First index of the P field in `SEC` (R158). -/
def pFieldAt : Nat := 2076

/-- First index of the Q field in `SEC` (R158). -/
def qFieldAt : Nat := 2248

/-- `PField(mode)` (R159), 172 bytes. -/
def pField (mode : TrackMode) (s : State) : List Byte := eccField (logicalBytes mode s) pParams

/-- `QField(mode)` (R159), 104 bytes; it reads the P field as it stands in `SEC`. -/
def qField (mode : TrackMode) (s : State) : List Byte := eccField (logicalBytes mode s) qParams

/-- Does the P field of `SEC` hold `PField(mode)` (R164)? -/
def pMatches (mode : TrackMode) (s : State) : Bool := pField mode s == s.secRun pFieldAt 172

/-- Does the Q field of `SEC` hold `QField(mode)` (R165)? -/
def qMatches (mode : TrackMode) (s : State) : Bool := qField mode s == s.secRun qFieldAt 104

/-! ### Commands -/

/-- ECCP.GEN (R162). -/
def execEccpGen (mode : TrackMode) (s : State) : Host.Outcome State Fault Refusal :=
  if hasEcc mode then .next ((s.storeSec pFieldAt (pField mode s)).finish 0#32 0#32 0#32 0#32)
  else .next (s.raise .unsupportedField)

/-- ECCQ.GEN (R163). -/
def execEccqGen (mode : TrackMode) (s : State) : Host.Outcome State Fault Refusal :=
  if hasEcc mode then .next ((s.storeSec qFieldAt (qField mode s)).finish 0#32 0#32 0#32 0#32)
  else .next (s.raise .unsupportedField)

/-- ECCP.CHK (R164). -/
def execEccpChk (mode : TrackMode) (s : State) : Host.Outcome State Fault Refusal :=
  if hasEcc mode then .next (s.finish (flagWord (pMatches mode s)) 0#32 0#32 0#32)
  else .next (s.raise .unsupportedField)

/-- ECCQ.CHK (R165). -/
def execEccqChk (mode : TrackMode) (s : State) : Host.Outcome State Fault Refusal :=
  if hasEcc mode then .next (s.finish (flagWord (qMatches mode s)) 0#32 0#32 0#32)
  else .next (s.raise .unsupportedField)

end Sys2Proof.Machine
end

