-- ==== Sys2Proof/Machine/Layout.lean ====
section
/-! DEFINITION. The sector field layout multiplexer (`45_layout.md`): LAYOUT. -/

namespace Sys2Proof.Machine

/-- An entry of the table that is not `U` (R270). -/
structure FieldLayout where
  offset : Nat
  length : Nat
  skip   : Nat
deriving DecidableEq, Repr

/-- `Layout(mode, tag)` (R271), `none` being the mark `U`. -/
def fieldLayout (mode : TrackMode) (tag : FieldTag) : Option FieldLayout :=
  match mode, tag with
  | .audio, .sync => none
  | .audio, .header => none
  | .audio, .subHeader => none
  | .audio, .eccP => none
  | .audio, .eccQ => none
  | .audio, .ecc => none
  | .audio, .edc => none
  | .audio, .subchannel => none
  | .audio, .userData => some { offset := 0, length := 2352, skip := 0 }
  | .cdMode1, .sync => some { offset := 0, length := 12, skip := 2340 }
  | .cdMode1, .header => some { offset := 12, length := 4, skip := 2336 }
  | .cdMode1, .subHeader => none
  | .cdMode1, .eccP => some { offset := 2076, length := 172, skip := 104 }
  | .cdMode1, .eccQ => some { offset := 2248, length := 104, skip := 0 }
  | .cdMode1, .ecc => some { offset := 2076, length := 276, skip := 0 }
  | .cdMode1, .edc => some { offset := 2064, length := 4, skip := 284 }
  | .cdMode1, .subchannel => none
  | .cdMode1, .userData => some { offset := 16, length := 2048, skip := 288 }
  | .cdMode2Formless, .sync => some { offset := 0, length := 12, skip := 2340 }
  | .cdMode2Formless, .header => some { offset := 12, length := 4, skip := 2336 }
  | .cdMode2Formless, .subHeader => none
  | .cdMode2Formless, .eccP => none
  | .cdMode2Formless, .eccQ => none
  | .cdMode2Formless, .ecc => none
  | .cdMode2Formless, .edc => none
  | .cdMode2Formless, .subchannel => none
  | .cdMode2Formless, .userData => some { offset := 16, length := 2336, skip := 0 }
  | .cdMode2Form1, .sync => some { offset := 0, length := 12, skip := 2340 }
  | .cdMode2Form1, .header => some { offset := 12, length := 4, skip := 2336 }
  | .cdMode2Form1, .subHeader => some { offset := 16, length := 8, skip := 2328 }
  | .cdMode2Form1, .eccP => some { offset := 2076, length := 172, skip := 104 }
  | .cdMode2Form1, .eccQ => some { offset := 2248, length := 104, skip := 0 }
  | .cdMode2Form1, .ecc => some { offset := 2076, length := 276, skip := 0 }
  | .cdMode2Form1, .edc => some { offset := 2072, length := 4, skip := 276 }
  | .cdMode2Form1, .subchannel => none
  | .cdMode2Form1, .userData => some { offset := 24, length := 2048, skip := 280 }
  | .cdMode2Form2, .sync => some { offset := 0, length := 12, skip := 2340 }
  | .cdMode2Form2, .header => some { offset := 12, length := 4, skip := 2336 }
  | .cdMode2Form2, .subHeader => some { offset := 16, length := 8, skip := 2328 }
  | .cdMode2Form2, .eccP => none
  | .cdMode2Form2, .eccQ => none
  | .cdMode2Form2, .ecc => none
  | .cdMode2Form2, .edc => some { offset := 2348, length := 4, skip := 0 }
  | .cdMode2Form2, .subchannel => none
  | .cdMode2Form2, .userData => some { offset := 24, length := 2324, skip := 4 }

/-- LAYOUT (R273). -/
def execLayout (mode : TrackMode) (tag : FieldTag) (s : State) : Host.Outcome State Fault Refusal :=
  match fieldLayout mode tag with
  | none => .next (s.raise .unsupportedField)
  | some e => .next (s.finish (BitVec.ofNat 32 e.offset) (BitVec.ofNat 32 e.length) (BitVec.ofNat 32 e.skip) 0#32)

end Sys2Proof.Machine
end

