-- ==== Sys2Proof/Machine/Timecode.lean ====
section
/-! DEFINITION. The BCD and timecode unit (`43_bcd_timecode.md`): BCD2BIN, BIN2BCD, LBA2MSF, MSF2LBA. -/

namespace Sys2Proof.Machine

/-! ### Functions -/

/-- `ToBcd(v)` (R221); no rule applies it above 99. -/
def toBcd (v : Nat) : Byte := BitVec.ofNat 4 (v / 10) ++ BitVec.ofNat 4 (v % 10)

/-- `FromBcd(b)` (R221): total, a nibble above 9 taken at its arithmetic value. -/
def fromBcd (b : Byte) : Nat := (b.extractLsb' 4 4).toNat * 10 + (b.extractLsb' 0 4).toNat

/-- `BcdValid(b)` (R221). -/
def bcdValid (b : Byte) : Bool := decide ((b.extractLsb' 4 4).toNat ≤ 9) && decide ((b.extractLsb' 0 4).toNat ≤ 9)

/-- A time as minute, second, frame. -/
structure Time where
  minute : Nat
  second : Nat
  frame  : Nat
deriving DecidableEq, Repr

/-- `Msf(n)` (R222). -/
def msf (n : Nat) : Time := { minute := n / 4500, second := n / 75 % 60, frame := n % 75 }

/-- `LbaOfMsf(m, s, f)` (R223). -/
def lbaOfMsf (t : Time) : Int := ((t.minute * 60 + t.second) * 75 + t.frame : Nat) - 150

/-- `lba + 150` (R223), an unbounded integer. -/
def framesOf (lba : Int) : Int := lba + 150

/-- The last frame count two BCD digits of minutes can write, 99:59:74 (R222). -/
def maxFrames : Nat := 449999

/-- R226, R193, R196, R250: is a frame count one that has a BCD time? -/
def hasTime (n : Int) : Bool := decide (0 ≤ n) && decide (n ≤ (maxFrames : Int))

/-- The three BCD bytes of a time, minute first, as they stand in a header or a Q record (R67). -/
def bcdTime (t : Time) : List Byte := [toBcd t.minute, toBcd t.second, toBcd t.frame]

/-! ### Commands -/

/-- BCD2BIN (R224). -/
def execBcd2bin (s : State) : Host.Outcome State Fault Refusal :=
  let b := s.argByte 0 0
  .next (s.finish (BitVec.ofNat 32 (fromBcd b)) (flagWord (bcdValid b)) 0#32 0#32)

/-- BIN2BCD (R225). -/
def execBin2bcd (s : State) : Host.Outcome State Fault Refusal :=
  let v := s.argU 0
  if v > 99 then .next (s.raise .invalidInput)
  else .next (s.finish (0#24 ++ toBcd v) 0#32 0#32 0#32)

/-- LBA2MSF (R226). -/
def execLba2msf (s : State) : Host.Outcome State Fault Refusal :=
  let n := framesOf (s.argS 0)
  if hasTime n then
    let t := msf n.toNat
    .next (s.finish (packBytes (toBcd t.frame) (toBcd t.second) (toBcd t.minute))
      (packBytes (BitVec.ofNat 8 t.frame) (BitVec.ofNat 8 t.second) (BitVec.ofNat 8 t.minute)) 0#32 0#32)
  else .next (s.raise .invalidInput)

/-- R227: is the time of three BCD bytes well formed? -/
def timeValid (m sec f : Byte) : Bool :=
  bcdValid m && bcdValid sec && bcdValid f && decide (fromBcd sec < 60) && decide (fromBcd f < 75)

/-- MSF2LBA (R227). -/
def execMsf2lba (s : State) : Host.Outcome State Fault Refusal :=
  let m := s.argByte 0 0
  let sec := s.argByte 0 8
  let f := s.argByte 0 16
  let lba := lbaOfMsf { minute := fromBcd m, second := fromBcd sec, frame := fromBcd f }
  .next (s.finish (BitVec.ofInt 32 lba) (flagWord (timeValid m sec f)) 0#32 0#32)

end Sys2Proof.Machine
end

