-- ==== Sys2Proof/Machine/Sector.lean ====
section
/-! DEFINITION. The sector check and reconstruct sequences (`44_sector_engine.md`): SEC.CHECK, SEC.BUILD. -/

namespace Sys2Proof.Machine

/-- `SYNC` (R6, R241). -/
def syncPattern : List Byte :=
  [0x00#8, 0xFF#8, 0xFF#8, 0xFF#8, 0xFF#8, 0xFF#8, 0xFF#8, 0xFF#8, 0xFF#8, 0xFF#8, 0xFF#8, 0x00#8]

/-- `HasSync()` (R241). -/
def hasSync (s : State) : Bool := s.secRun 0 12 == syncPattern

/-! ### SEC.CHECK -/

/-- The classes of R242. -/
inductive SectorClass where
  | unclassed
  | mode0
  | mode1
  | mode2Form1
  | mode2Form2
deriving DecidableEq, Repr

/-- The number of a class (R242, R249). -/
def classBits : SectorClass → BitVec 3
  | .unclassed => 0#3
  | .mode0 => 1#3
  | .mode1 => 2#3
  | .mode2Form1 => 3#3
  | .mode2Form2 => 4#3

/-- `Class()` (R242): the sync, the mode byte `SEC[15]`, and bit 5 of the submode byte `SEC[18]`. -/
def sectorClass (s : State) : SectorClass :=
  if hasSync s = false then .unclassed
  else if s.sec 15 = 0x00#8 then .mode0
  else if s.sec 15 = 0x01#8 then .mode1
  else if s.sec 15 = 0x02#8 then
    if (s.sec 18).getLsbD 5 then .mode2Form2 else .mode2Form1
  else .unclassed

/-- The six values a check returns (R243). -/
structure SectorReport where
  overall  : Option Bool
  eccP     : Option Bool
  eccQ     : Option Bool
  edc      : Option Bool
  computed : Word
  stored   : Word
deriving DecidableEq, Repr

/-- `CheckMode0()` (R244). -/
def checkMode0 (s : State) : SectorReport :=
  { overall := some ((s.secRun 16 2336).all fun b => b == 0x00#8)
    eccP := none, eccQ := none, edc := none, computed := 0#32, stored := 0#32 }

/-- `CheckEcc(mode)` (R245, R246), `f` being the EDC field of the mode. -/
def checkEcc (mode : TrackMode) (f : EdcField) (s : State) : SectorReport :=
  let pm := pMatches mode s
  let qm := qMatches mode s
  let em := sectorEdc f s == s.secWord f.stored
  { overall := some (pm && qm && em), eccP := some pm, eccQ := some qm, edc := some em
    computed := sectorEdc f s, stored := s.secWord f.stored }

/-- `CheckForm2()` (R247): a stored EDC of 0 passes. -/
def checkForm2 (f : EdcField) (s : State) : SectorReport :=
  let em := sectorEdc f s == s.secWord f.stored || s.secWord f.stored == 0#32
  { overall := some em, eccP := none, eccQ := none, edc := some em
    computed := sectorEdc f s, stored := s.secWord f.stored }

/-- The EDC field of `CdMode1` (R126). -/
def edcFieldMode1 : EdcField := { first := 0x000, count := 2064, stored := 0x810 }

/-- The EDC field of `CdMode2Form1` (R126). -/
def edcFieldForm1 : EdcField := { first := 0x010, count := 2056, stored := 0x818 }

/-- The EDC field of `CdMode2Form2` (R126). -/
def edcFieldForm2 : EdcField := { first := 0x010, count := 2332, stored := 0x92C }

/-- The check SEC.CHECK runs for a class (R243), `none` when the sector has none (R248). -/
def checkSector (s : State) : Option SectorReport :=
  match sectorClass s with
  | .unclassed => none
  | .mode0 => some (checkMode0 s)
  | .mode1 => some (checkEcc .cdMode1 edcFieldMode1 s)
  | .mode2Form1 => some (checkEcc .cdMode2Form1 edcFieldForm1 s)
  | .mode2Form2 => some (checkForm2 edcFieldForm2 s)

/-- SEC.CHECK (R243, R249); without a class it raises `InvalidInput` (R248). -/
def execSecCheck (s : State) : Host.Outcome State Fault Refusal :=
  match checkSector s with
  | none => .next (s.raise .invalidInput)
  | some r =>
    .next (s.finish (sectorFlags (classBits (sectorClass s)) r.edc r.eccQ r.eccP r.overall) r.computed r.stored 0#32)

/-! ### SEC.BUILD (R250): one definition per step, each reading what the earlier steps wrote -/

/-- The mode byte of R251. -/
def modeByte : TrackMode → Byte
  | .cdMode1 => 0x01#8
  | _ => 0x02#8

/-- Step 1, the prefix (R251): sync, the BCD time of the frame count `n = lba + 150`, the mode byte. -/
def buildPrefix (mode : TrackMode) (n : Nat) (s : State) : State :=
  s.storeSec 0 (syncPattern ++ bcdTime (msf n) ++ [modeByte mode])

/-- `DuplicateSubHeader()` (R253). -/
def duplicateSubHeader (s : State) : State :=
  match s.cfg.subhdrDup with
  | .secondToFirst => s.storeSec 16 (s.secRun 20 4)
  | .firstToSecond => s.storeSec 20 (s.secRun 16 4)

/-- Step 2 (R253): the two modes that have a sub-header. -/
def buildSubHeader (mode : TrackMode) (s : State) : State :=
  match mode with
  | .cdMode2Form1 | .cdMode2Form2 => duplicateSubHeader s
  | .audio | .cdMode1 | .cdMode2Formless => s

/-- Step 3 (R250): the EDC, and in `CdMode1` the eight reserved bytes after it (R252). -/
def buildEdc (mode : TrackMode) (s : State) : State :=
  match edcField mode with
  | none => s
  | some f =>
    let t := s.storeSec f.stored (leBytes (sectorEdc f s))
    if mode = .cdMode1 then t.storeSec 0x814 (List.replicate 8 0x00#8) else t

/-- Step 4 (R250, R166): P, then Q over the P just written. -/
def buildEcc (mode : TrackMode) (s : State) : State :=
  if hasEcc mode then
    let t := s.storeSec pFieldAt (pField mode s)
    t.storeSec qFieldAt (qField mode t)
  else s

/-- The four steps of R250 in their order. -/
def buildSector (mode : TrackMode) (n : Nat) (s : State) : State :=
  buildEcc mode (buildEdc mode (buildSubHeader mode (buildPrefix mode n s)))

/-- SEC.BUILD (R250): `UnsupportedField` for `Audio` (R254), then `InvalidInput` for a time without a header. -/
def execSecBuild (mode : TrackMode) (s : State) : Host.Outcome State Fault Refusal :=
  if mode = .audio then .next (s.raise .unsupportedField)
  else if hasTime (framesOf (s.argS 0)) then
    .next ((buildSector mode (framesOf (s.argS 0)).toNat s).finish 0#32 0#32 0#32 0#32)
  else .next (s.raise .invalidInput)

end Sys2Proof.Machine
end

