-- ==== Sys2Proof/Machine/Subchannel.lean ====
section
/-! DEFINITION. The subchannel interleaver and Q unit (`42_subchannel.md`): SUB.DEINT, SUB.INT, Q.PARSE, Q.BUILD,
SUB.GEN. -/

namespace Sys2Proof.Machine

/-! ### Interleave and deinterleave -/

/-- The byte whose bit `7 - k` is `f k`, for `k` in 0 to 7. -/
def byteOfBits (f : Nat → Bool) : Byte :=
  BitVec.ofBool (f 0) ++ BitVec.ofBool (f 1) ++ BitVec.ofBool (f 2) ++ BitVec.ofBool (f 3) ++
  BitVec.ofBool (f 4) ++ BitVec.ofBool (f 5) ++ BitVec.ofBool (f 6) ++ BitVec.ofBool (f 7)

/-- `Deint(raw)` (R181): bit `7 - k` of byte `12c + j` is bit `7 - c` of raw byte `8j + k`. -/
def deint (raw : List Byte) : List Byte :=
  (List.range 96).map fun n => byteOfBits fun k => (raw.getD (8 * (n % 12) + k) 0#8).getLsbD (7 - n / 12)

/-- `Inter(flat)` (R182): bit `7 - c` of raw byte `8j + k` is bit `7 - k` of byte `12c + j`. -/
def inter (flat : List Byte) : List Byte :=
  (List.range 96).map fun n => byteOfBits fun c => (flat.getD (12 * c + n / 8) 0#8).getLsbD (7 - n % 8)

/-! ### The Q record (R186) -/

/-- Index of `QB[0]` in `SUBD` (R31). -/
def qAt : Nat := 12

/-- `QB[i]` (R31). -/
def State.qb (s : State) (i : Nat) : Byte := s.subd (qAt + i)

/-- `Area(lba, tno)` (R189). -/
def area (lba : Int) (tno : Byte) : BitVec 2 :=
  if lba < 0 then 1#2 else if tno = 0xAA#8 then 2#2 else 0#2

/-- R188: `adr` in {1, 2, 3, 5}. -/
def adrKnown (adr : BitVec 4) : Bool := adr == 1#4 || adr == 2#4 || adr == 3#4 || adr == 5#4

/-- R188, R190: `CMD.BCD = 1` and `adr` in {1, 5}. -/
def qConverted (bcd : Bool) (adr : BitVec 4) : Bool := bcd && (adr == 1#4 || adr == 5#4)

/-- `v(i)` (R188): a payload byte, converted from BCD or raw. -/
def qValue (converted : Bool) (b : Byte) : Byte := if converted then BitVec.ofNat 8 (fromBcd b) else b

/-- `Crc16(QB[0..10))` (R123). -/
def qCrc (s : State) : Half := crc16 s.cfg.crc16Variant (s.subdRun qAt 10)

/-- `QB[10] << 8 | QB[11]` (R67, R187). -/
def qStored (s : State) : Half := s.qb 10 ++ s.qb 11

/-- Bytes 0 to 9 of `QRecord` (R192), the absolute time as the frame count `n = lba + 150`. -/
def qPrefix (n rel : Nat) (control : BitVec 4) (track index : Nat) : List Byte :=
  [control ++ 1#4, toBcd track, toBcd index] ++ bcdTime (msf rel) ++ [0x00#8] ++ bcdTime (msf n)

/-- `QRecord` (R192): the ten bytes and their CRC, high byte first. -/
def qRecord (v : Crc16Variant) (n rel : Nat) (control : BitVec 4) (track index : Nat) : List Byte :=
  let q := qPrefix n rel control track index
  q ++ [(crc16 v q).extractLsb' 8 8, (crc16 v q).extractLsb' 0 8]

/-- R193, R196: can every operand be written as BCD digits? -/
def qOperandsOk (n rel : Int) (track index : Nat) : Bool :=
  decide (track ≤ 99) && decide (index ≤ 99) && decide (rel ≤ (maxFrames : Int)) && hasTime n

/-- `PregapEnd(track_start, pregap)` (R197), an unbounded integer. -/
def pregapEnd (m : PregapModel) (start : Int) (pregap : Nat) : Int :=
  match m with
  | .startPlusPregap => start + pregap
  | .start => start

/-! ### Commands -/

/-- SUB.DEINT (R184). -/
def execSubDeint (s : State) : Host.Outcome State Fault Refusal :=
  .next ((s.storeSubd 0 (deint s.subrAll)).finish 0#32 0#32 0#32 0#32)

/-- SUB.INT (R185). -/
def execSubInt (s : State) : Host.Outcome State Fault Refusal :=
  .next ((s.storeSubr (inter (s.subdRun 0 subBytes))).finish 0#32 0#32 0#32 0#32)

/-- Q.PARSE (R188, R191). -/
def execQParse (bcd : Bool) (s : State) : Host.Outcome State Fault Refusal :=
  let lba := s.argS 0
  let control := (s.qb 0).extractLsb' 4 4
  let adr := (s.qb 0).extractLsb' 0 4
  let conv := qConverted bcd adr
  let v := fun i => qValue conv (s.qb i)
  .next (s.finish
    (qFlags (qCrc s) conv (qCrc s == qStored s) (adrKnown adr) (area lba (s.qb 1)) control adr)
    (packBytes (s.qb 6) (v 2) (v 1))
    (packBytes (v 5) (v 4) (v 3))
    (packBytes (v 9) (v 8) (v 7)))

/-- Q.BUILD (R193). -/
def execQBuild (s : State) : Host.Outcome State Fault Refusal :=
  let n := framesOf (s.argS 0)
  let rel := s.argU 1
  let index := (s.argByte 2 0).toNat
  let track := (s.argByte 2 8).toNat
  let control := s.argNibble 2 16
  if qOperandsOk n rel track index then
    let q := qPrefix n.toNat rel control track index
    .next ((s.storeSubd qAt (qRecord s.cfg.crc16Variant n.toNat rel control track index)).finish
      (0#16 ++ crc16 s.cfg.crc16Variant q) 0#32 0#32 0#32)
  else .next (s.raise .invalidInput)

/-- SUB.GEN (R196). The window is interleaved from the `SUBD` the command has just written (R69). -/
def execSubGen (s : State) : Host.Outcome State Fault Refusal :=
  let lba := s.argS 0
  let pregapStop := pregapEnd s.cfg.pregapModel (s.argS 1) (s.argU 2)
  let inPregap := decide (lba < pregapStop)
  let rel := if inPregap then pregapStop - lba else lba - pregapStop
  let n := framesOf lba
  let index := (s.argByte 3 0).toNat
  let track := (s.argByte 3 8).toNat
  let control := s.argNibble 3 16
  if qOperandsOk n rel track index then
    let q := qPrefix n.toNat rel.toNat control track index
    let p : Byte := if inPregap then 0xFF#8 else 0x00#8
    let flat := List.replicate 12 p ++ qRecord s.cfg.crc16Variant n.toNat rel.toNat control track index ++
      List.replicate 72 0x00#8
    .next (((s.storeSubd 0 flat).storeSubr (inter flat)).finish
      (subGenFlags inPregap (crc16 s.cfg.crc16Variant q)) 0#32 0#32 0#32)
  else .next (s.raise .invalidInput)

end Sys2Proof.Machine
end

