-- ==== Sys2Proof/Machine/Dispatch.lean ====
section
/-! DEFINITION. Which meaning each command has (`30_encoding.md` R96): one arm per constructor of `Instr`. -/

namespace Sys2Proof.Machine

def exec (i : Instr) (s : State) : Host.Outcome State Fault Refusal :=
  match i with
  | .nop => Sys2Proof.Machine.execNop s
  | .crc16 => Sys2Proof.Machine.execCrc16 s
  | .edc => Sys2Proof.Machine.execEdc s
  | .edcGen mode => Sys2Proof.Machine.execEdcGen mode s
  | .edcChk mode => Sys2Proof.Machine.execEdcChk mode s
  | .eccpGen mode => Sys2Proof.Machine.execEccpGen mode s
  | .eccqGen mode => Sys2Proof.Machine.execEccqGen mode s
  | .eccpChk mode => Sys2Proof.Machine.execEccpChk mode s
  | .eccqChk mode => Sys2Proof.Machine.execEccqChk mode s
  | .subDeint => Sys2Proof.Machine.execSubDeint s
  | .subInt => Sys2Proof.Machine.execSubInt s
  | .qParse bcd => Sys2Proof.Machine.execQParse bcd s
  | .qBuild => Sys2Proof.Machine.execQBuild s
  | .subGen => Sys2Proof.Machine.execSubGen s
  | .bcd2bin => Sys2Proof.Machine.execBcd2bin s
  | .bin2bcd => Sys2Proof.Machine.execBin2bcd s
  | .lba2msf => Sys2Proof.Machine.execLba2msf s
  | .msf2lba => Sys2Proof.Machine.execMsf2lba s
  | .secCheck => Sys2Proof.Machine.execSecCheck s
  | .secBuild mode => Sys2Proof.Machine.execSecBuild mode s
  | .layout mode tag => Sys2Proof.Machine.execLayout mode tag s

end Sys2Proof.Machine
end

