-- ==== Sys2Proof/Machine/Engine.lean ====
section
/-! DEFINITION. The ENGINE's turn: the pending command word is decoded and run (`30_encoding.md` R101). -/

namespace Sys2Proof.Machine

/-- One command (R101): an illegal word raises `IllegalCommand` (R97), a legal one has its command's meaning. -/
def runCommand (w : Word) (s : State) : Host.Outcome State Fault Refusal :=
  match Sys2Proof.decode w with
  | .ok i => exec i s
  | .error _ => .next (s.raise .illegalCommand)

/-- The ENGINE completes the command it runs; an idle ENGINE does nothing (R23, R304). -/
def engineTurn (s : State) : Host.Outcome State Fault Refusal :=
  match s.cmd with
  | some w => runCommand w s
  | none => .next s

/-- The agenda that gives the ENGINE the next turn: an empty one does already. -/
def engineFirst : List Turn → List Turn
  | [] => []
  | t :: ts => .engine :: t :: ts

end Sys2Proof.Machine
end

