-- ==== Sys2Proof/Machine/HostPort.lean ====
section
/-! DEFINITION. What the outside can do to the block: the HOST's accesses to the register window (`20_memory.md`
R60 to R65) and reset (`70_reset_and_hazards.md` R320). -/

namespace Sys2Proof.Machine

/-- The size of the register window (R60). -/
def windowBytes : Nat := 0x3000

/-- The end of the registers (R63): offsets 0x0000 to 0x0027 are registers. -/
def registersEnd : Nat := 0x28

/-- The address an access goes to. -/
def Access.addr : Access → Nat
  | .read _ a => a
  | .write _ a _ => a

/-- The width of an access. -/
def Access.width : Access → Width
  | .read w _ => w
  | .write w _ _ => w

/-- R61: the register at an aligned offset. -/
def regAt (off : Nat) : Option Reg :=
  match off with
  | 0x00 => some .cmd
  | 0x04 => some .status
  | 0x08 => some (.arg 0)
  | 0x0C => some (.arg 1)
  | 0x10 => some (.arg 2)
  | 0x14 => some (.arg 3)
  | 0x18 => some (.res 0)
  | 0x1C => some (.res 1)
  | 0x20 => some (.res 2)
  | 0x24 => some (.res 3)
  | _ => none

/-- What a HOST read of a register returns: `CMD` reads 0 (R25). -/
def State.regValue (s : State) : Reg → Word
  | .cmd => 0#32
  | .status => s.status
  | .arg i => s.arg i
  | .res i => s.res i

/-- The HOST's record of a value it has read; the block itself does not change (R65). -/
def State.noteRead (s : State) (v : Word) : State := { s with seen := v :: s.seen }

/-- R323: does the HOST have to wait? From the write of `CMD` until a read of `STATUS` has returned `BUSY = 0`. -/
def State.held (s : State) : Bool := s.busy || s.unpolled

/-- R323: what a read of `STATUS` settles. One that returns `BUSY = 0` ends the HOST's wait. -/
def State.poll (s : State) : State := { s with unpolled := s.unpolled && s.busy }

/-- A HOST read of a register (R65): it records the value, and a read of `STATUS` is a poll. -/
def State.readReg (s : State) (r : Reg) : State :=
  match r with
  | .status => (s.noteRead s.status).poll
  | .cmd | .arg _ | .res _ => s.noteRead (s.regValue r)

/-- A HOST write of a register (R65): `CMD` starts a command, `ARG` is written, `STATUS` and `RES` ignore it. -/
def State.writeReg (s : State) (r : Reg) (v : Word) : State :=
  match r with
  | .cmd => s.start v
  | .status => s
  | .arg i => s.setArg i v
  | .res _ => s

/-- A register access (R63): 32 bits wide. -/
def regAccess (r : Reg) (a : Access) (s : State) : Host.Outcome State Fault Refusal :=
  match a with
  | .read .word _ => .next (s.readReg r)
  | .write .word _ v => .next (s.writeReg r v)
  | .read .byte addr | .read .half addr | .write .byte addr _ | .write .half addr _ => .refused (.badAccess addr)

/-- A buffer access (R63): one byte, carried in bits 7:0 of the data. -/
def bufferAccess (off : Nat) (a : Access) (s : State) : Host.Outcome State Fault Refusal :=
  match a with
  | .read .byte _ => .next (s.noteRead (0#24 ++ s.byte off))
  | .write .byte _ v => .next (s.store off [v.extractLsb' 0 8])
  | .read .half addr | .read .word addr | .write .half addr _ | .write .word addr _ => .refused (.badAccess addr)

/-- An access at an offset of the window, the block being ready for it. -/
def windowAccess (off : Nat) (a : Access) (s : State) : Host.Outcome State Fault Refusal :=
  if off < registersEnd then
    match regAt off with
    | some r => regAccess r a s
    | none => .refused (.badAccess a.addr)
  else if inBuffer off then bufferAccess off a s
  else .refused (.hole a.addr)

/-- R323: the one access allowed while the HOST waits, a 32-bit read of `STATUS`. -/
def isStatusPoll (base : Nat) (a : Access) : Bool :=
  match a with
  | .read .word addr => decide (addr = base + 0x04)
  | _ => false

/-- One HOST access (R60 to R65). Outside the window there is no block; while the HOST waits, only
`STATUS` may be read (R323). -/
def hostAccess (a : Access) (s : State) : Host.Outcome State Fault Refusal :=
  if a.addr < s.cfg.base ∨ s.cfg.base + windowBytes ≤ a.addr then .fault (.outsideWindow a.addr)
  else if s.held ∧ isStatusPoll s.cfg.base a = false then .refused (.busy a.addr)
  else windowAccess (a.addr - s.cfg.base) a s

/-- Reset (R320): registers and `STATUS` to 0, the running command and the HOST's wait for it abandoned, every buffer
byte unspecified. The
configuration stays (R21), and so do the agenda and what the HOST has read (notes/assumptions/10.md). -/
def State.platformReset (s : State) : State :=
  { s with
    arg0 := 0#32, arg1 := 0#32, arg2 := 0#32, arg3 := 0#32
    res0 := 0#32, res1 := 0#32, res2 := 0#32, res3 := 0#32
    status := 0#32, cmd := none, mem := [], unpolled := false, resets := s.resets + 1 }

end Sys2Proof.Machine
end

