-- ==== Sys2Proof/Machine/Step.lean ====
section
/-! DEFINITION. One step: the next turn of the agenda. A command is one step of the ENGINE (`10_state.md` R23,
R34). -/

namespace Sys2Proof.Machine

/-- One turn. With nothing on the agenda a pending command completes (R327) and an idle block stays idle (R304). -/
def step (s : State) : Host.Outcome State Fault Refusal :=
  match s.agenda with
  | [] => engineTurn s
  | .engine :: rest => engineTurn { s with agenda := rest }
  | .host a :: rest => hostAccess a { s with agenda := rest }
  | .reset :: rest => .next (State.platformReset { s with agenda := rest })

/-- The state in which the command word `w`, of which `nbits` bits are given, is pending and the ENGINE has the next
turn. It stands for the HOST's write of `CMD` (R25), which is how a command comes to run (notes/assumptions/1.md). -/
def State.withFetchWord (s : State) (nbits w : Nat) : State :=
  { s.start (BitVec.ofNat 32 (w % 2 ^ nbits)) with agenda := engineFirst s.agenda }

end Sys2Proof.Machine
end

