-- ==== Sys2Proof/Machine/Assembler.lean ====
section
/-! DEFINITION. The HOST sequences of the assembler notation (`30_encoding.md` R99) and of the pseudo-commands
(R100), as turns of the agenda. They add no hardware (notes/assumptions/11.md). `polls` is how many reads of `STATUS`
still see `BUSY = 1`, the open `LATENCY(cmd)` of `70_reset_and_hazards.md` R326; a sequence of two commands has one count
for each, because the latency may differ from command to command. -/

namespace Sys2Proof.Machine

/-- `wr`: a HOST write of the register at an offset. -/
def wr (base off : Nat) (v : Word) : Turn := .host (.write .word (base + off) v)

/-- `rd`: a HOST read of the register at an offset. -/
def rd (base off : Nat) : Turn := .host (.read .word (base + off))

/-- `wrb`: a HOST write of one buffer byte. -/
def wrb (base off : Nat) (b : Byte) : Turn := .host (.write .byte (base + off) (0#24 ++ b))

/-- `rdb`: a HOST read of one buffer byte. -/
def rdb (base off : Nat) : Turn := .host (.read .byte (base + off))

/-- A HOST read of `STATUS`. -/
def pollStatus (base : Nat) : Turn := rd base 0x04

/-- A command line (R99): write the encoded word to `CMD`, read `STATUS` until `BUSY = 0`. -/
def commandLine (base polls : Nat) (i : Instr) : List Turn :=
  wr base 0x00 (encode i) :: List.replicate polls (pollStatus base) ++ [.engine, pollStatus base]

/-- `Q.CRC` (R100). -/
def qCrcLine (base polls : Nat) : List Turn :=
  [wr base 0x08 12#32, wr base 0x0C 10#32] ++ commandLine base polls .crc16

/-- `ECC.GEN <mode>` (R100): P before Q (`41_ecc.md` R166). -/
def eccGenLine (base pollsP pollsQ : Nat) (mode : TrackMode) : List Turn :=
  commandLine base pollsP (.eccpGen mode) ++ commandLine base pollsQ (.eccqGen mode)

/-- `ECC.CHK <mode>` (R100). -/
def eccChkLine (base pollsP pollsQ : Nat) (mode : TrackMode) : List Turn :=
  commandLine base pollsP (.eccpChk mode) ++ [rd base 0x18] ++
  commandLine base pollsQ (.eccqChk mode) ++ [rd base 0x18]

/-- `SUB.QPARSE bcd=<b>` (R100). -/
def subQparseLine (base pollsDeint pollsParse : Nat) (bcd : Bool) : List Turn :=
  commandLine base pollsDeint .subDeint ++ commandLine base pollsParse (.qParse bcd)

end Sys2Proof.Machine
end

