-- ==== Sys2Proof/Safety.lean ====
section
/-! DEFINITION. What counts as a legal state and a legal turn, in the terms statements use. -/

namespace Sys2Proof.Machine

/-- R26, R291, R294: idle, `STATUS` is 0 after reset or `DONE` with an error code 0 to 3; while a command runs it is
`BUSY` alone (R34). -/
def statusLegal (s : State) : Bool :=
  match s.cmd with
  | some _ => s.status == 0x01#32
  | none => s.status == 0x00#32 || s.status == 0x02#32 || s.status == 0x12#32 || s.status == 0x22#32
      || s.status == 0x32#32

/-- The invariant of every reachable state: the byte store keeps its canonical form, holds bytes of the three buffers
only (R61), `STATUS` agrees with whether a command is pending, and the HOST owes a poll while one is (R323). -/
def State.inv (s : State) : Bool :=
  s.mem.wf && s.mem.all (fun c => inBuffer c.1) && statusLegal s && (s.cmd.isNone || s.unpolled)

/-- The HOST accesses to which R60 to R63 and R323 give a meaning. -/
def accessAllowed (a : Access) (s : State) : Bool :=
  decide (s.cfg.base ≤ a.addr) && decide (a.addr < s.cfg.base + 0x3000) &&
  (!(s.busy || s.unpolled) || isStatusPoll s.cfg.base a) &&
  (if a.addr - s.cfg.base < 0x28 then decide ((a.addr - s.cfg.base) % 4 = 0) && a.width == .word
   else inBuffer (a.addr - s.cfg.base) && a.width == .byte)

/-- Is the next turn one the spec gives a meaning? The ENGINE's turns and resets always are. -/
def nextTurnAllowed (s : State) : Bool :=
  match s.agenda with
  | .host a :: _ => accessAllowed a s
  | _ => true

/-- Two states a command cannot tell apart (R21): equal `ARG` registers, equal configuration, equal buffer bytes. -/
def State.SameInputs (s t : State) : Prop :=
  s.arg0 = t.arg0 ∧ s.arg1 = t.arg1 ∧ s.arg2 = t.arg2 ∧ s.arg3 = t.arg3 ∧ s.cfg = t.cfg ∧
  ∀ off, inBuffer off = true → s.byte off = t.byte off

/-- Two states the HOST cannot tell apart by reading results: equal `RES`, `STATUS` and buffer bytes. -/
def State.SameResults (s t : State) : Prop :=
  s.res0 = t.res0 ∧ s.res1 = t.res1 ∧ s.res2 = t.res2 ∧ s.res3 = t.res3 ∧ s.status = t.status ∧
  ∀ off, inBuffer off = true → s.byte off = t.byte off

/-- The part of a state no command may change (R21, R22): the `ARG` registers, the configuration, the count of
resets, the agenda, the HOST's record, and the poll it owes (R323). -/
def State.SameFixed (s t : State) : Prop :=
  t.arg0 = s.arg0 ∧ t.arg1 = s.arg1 ∧ t.arg2 = s.arg2 ∧ t.arg3 = s.arg3 ∧ t.cfg = s.cfg ∧ t.resets = s.resets ∧
  t.agenda = s.agenda ∧ t.seen = s.seen ∧ t.unpolled = s.unpolled

/-- R294, R24: a command has completed without error and left these four results. -/
def State.Completed (t : State) (r0 r1 r2 r3 : Word) : Prop :=
  t.res0 = r0 ∧ t.res1 = r1 ∧ t.res2 = r2 ∧ t.res3 = r3 ∧ t.status = 0x00000002#32 ∧ t.cmd = none

/-- R294: what a command that raises the error with this code leaves of the state before it. -/
def State.failed (s : State) (code : BitVec 4) : State :=
  { s with
    res0 := 0#32, res1 := 0#32, res2 := 0#32, res3 := 0#32
    status := 0#24 ++ code ++ 0x2#4, cmd := none }

/-! ### What the buffers hold, byte by byte -/

/-- `SEC[lo .. lo+n)`, one byte read at a time (R9). -/
def State.secBytes (s : State) (lo n : Nat) : List Byte := (List.range n).map fun k => s.sec (lo + k)

/-- `QB[0 .. n)`, one byte read at a time (R31). -/
def State.qBytes (s : State) (n : Nat) : List Byte := (List.range n).map fun k => s.subd (12 + k)

/-- The little-endian `u32` at `SEC[p .. p+4)` (R67). -/
def State.secU32 (s : State) (p : Nat) : Word := s.sec (p + 3) ++ s.sec (p + 2) ++ s.sec (p + 1) ++ s.sec p

/-- The three modes that have an EDC, each with its first covered index, the count of covered bytes and the index it
is stored at (R126). -/
def edcRows : List (TrackMode × Nat × Nat × Nat) :=
  [(.cdMode1, 0x000, 2064, 0x810), (.cdMode2Form1, 0x010, 2056, 0x818), (.cdMode2Form2, 0x010, 2332, 0x92C)]

/-- The logical bytes of R154, one byte read at a time: `SEC[12 + i]`, the first four read as zero in
`CdMode2Form1`. -/
def State.parityInput (s : State) (mode : TrackMode) : List Byte :=
  (List.range 2340).map fun i => if i < 4 ∧ mode = .cdMode2Form1 then 0#8 else s.sec (12 + i)

/-- R158: the P field of `SEC` holds the pairs `pair m` of the 86 rows. -/
def State.PFieldIs (s : State) (pair : Nat → Byte × Byte) : Prop :=
  ∀ m < 86, s.sec (2076 + m) = (pair m).1 ∧ s.sec (2076 + 86 + m) = (pair m).2

/-- R158: the Q field of `SEC` holds the pairs `pair m` of the 52 rows. -/
def State.QFieldIs (s : State) (pair : Nat → Byte × Byte) : Prop :=
  ∀ m < 52, s.sec (2248 + m) = (pair m).1 ∧ s.sec (2248 + 52 + m) = (pair m).2

/-- The P field of `SEC` is the parity of what `SEC` holds (R164). -/
def State.PHolds (s : State) (mode : TrackMode) : Prop := s.PFieldIs (eccPair (s.parityInput mode) pParams)

/-- The Q field of `SEC` is the parity of what `SEC` holds (R165). -/
def State.QHolds (s : State) (mode : TrackMode) : Prop := s.QFieldIs (eccPair (s.parityInput mode) qParams)

/-- `SEC` begins with the sync pattern (R241). -/
def State.SyncHolds (s : State) : Prop :=
  s.sec 0 = 0x00#8 ∧ (∀ i, 1 ≤ i → i ≤ 10 → s.sec i = 0xFF#8) ∧ s.sec 11 = 0x00#8

/-- `SUBD[12..24)` holds the ADR 1 record of these operands, `n` being `lba + 150` (R192), with its CRC `crc`. -/
def State.HoldsQRecord (s : State) (n rel : Nat) (control : BitVec 4) (track index : Nat) (crc : Half) : Prop :=
  s.subd 12 = control ++ 1#4 ∧ s.subd 13 = toBcd track ∧ s.subd 14 = toBcd index ∧
  s.subd 15 = toBcd (rel / 4500) ∧ s.subd 16 = toBcd (rel / 75 % 60) ∧ s.subd 17 = toBcd (rel % 75) ∧
  s.subd 18 = 0x00#8 ∧
  s.subd 19 = toBcd (n / 4500) ∧ s.subd 20 = toBcd (n / 75 % 60) ∧ s.subd 21 = toBcd (n % 75) ∧
  crc = crc16 s.cfg.crc16Variant (s.qBytes 10) ∧
  s.subd 22 = crc.extractLsb' 8 8 ∧ s.subd 23 = crc.extractLsb' 0 8

/-- The indices of `SEC` that SEC.BUILD may write in a mode (R250 to R254). -/
def builtIndex (mode : TrackMode) (i : Nat) : Prop :=
  match mode with
  | .audio => False
  | .cdMode1 => i < 16 ∨ (2064 ≤ i ∧ i < 2352)
  | .cdMode2Formless => i < 16
  | .cdMode2Form1 => i < 24 ∨ (2072 ≤ i ∧ i < 2352)
  | .cdMode2Form2 => i < 24 ∨ (2348 ≤ i ∧ i < 2352)

/-- Every byte of memory outside the offsets `lo` to `hi - 1` reads as before. -/
def SameBytesOutside (s t : State) (lo hi : Nat) : Prop := ∀ off, off < lo ∨ hi ≤ off → t.byte off = s.byte off

end Sys2Proof.Machine
end

