-- ==== Sys2Proof/Certificates/Slice0/Obligations.lean ====
section
/-! DEFINITION. The statements about the machine, for the provers. Each docstring names the rule of spec/ it
formalises. -/

open Sys2Proof Sys2Proof.Machine

/-! ### Encoding -/

/-- R98, R99, R97: the words that decode to a command are exactly its encoded word. -/
def Obligations.DecodeInvertsEncode : Prop :=
  ∀ (w : Word) (i : Instr), decode w = .ok i ↔ encode i = w

/-- R98: every word is exactly one command or is illegal by the five tests of R97, and the decoder says which. -/
def Obligations.EveryWordIsOneCommandOrIllegal : Prop :=
  ∀ w : Word,
    (illegality w = none ∧ ∃ i, decode w = .ok i ∧ ∀ j, decode w = .ok j → j = i) ∨
    (∃ r, illegality w = some r ∧ decode w = .error r)

/-- R92: a word whose masked bits are a row's match value is that row's command, or has a reserved `MODE` or `TAG`;
and the word of a command has its row's match value under the mask. -/
def Obligations.MaskedMatchSelectsTheRow : Prop :=
  ∀ (w : Word) (i : Instr),
    (w &&& (formatOf i).mask = 0#24 ++ opcode i →
      (∃ j, opcode j = opcode i ∧ decode w = .ok j) ∨ decode w = .error .reservedMode ∨
        decode w = .error .reservedTag) ∧
    (decode w = .ok i → w &&& (formatOf i).mask = 0#24 ++ opcode i)

/-- Words written out from R96, one or more of every family. -/
def Obligations.SampleWordsDecode : Prop :=
  decode 0x00000000#32 = .ok .nop ∧ decode 0x00000001#32 = .ok .crc16 ∧
  decode 0x00000103#32 = .ok (.edcGen .cdMode1) ∧ decode 0x0000030A#32 = .ok (.eccpChk .cdMode2Form1) ∧
  decode 0x00008012#32 = .ok (.qParse true) ∧ decode 0x00000012#32 = .ok (.qParse false) ∧
  decode 0x0000001B#32 = .ok .msf2lba ∧ decode 0x00000421#32 = .ok (.secBuild .cdMode2Form2) ∧
  decode 0x00001128#32 = .ok (.layout .cdMode1 .subHeader) ∧ decode 0x00004928#32 = .error .reservedTag

/-! ### The step -/

/-- R34, R90, R101: when a command is pending and the ENGINE has the turn, the step is the meaning of the decoded
command; the step itself only takes the turn off the agenda.
That the turns stand in `agenda` is the model's choice (notes/assumptions/1.md). -/
def Obligations.StepRunsTheDecodedCommand : Prop :=
  ∀ (s : State) (w : Word) (i : Instr), s.cmd = some w → decode w = .ok i →
    (s.agenda = [] → step s = exec i s) ∧
    (∀ rest, s.agenda = .engine :: rest → step s = exec i { s with agenda := rest })

/-- R97, R294: when the pending word fails one of the five tests, the step raises `IllegalCommand` (code 3) and writes
nothing else.
That the turns stand in `agenda` is the model's choice (notes/assumptions/1.md). -/
def Obligations.IllegalWordRaises : Prop :=
  ∀ (s : State) (w : Word) (r : IllegalWord), s.cmd = some w → illegality w = some r →
    (s.agenda = [] → step s = .next (s.failed 3#4)) ∧
    (∀ rest, s.agenda = .engine :: rest → step s = .next ({ s with agenda := rest }.failed 3#4))

/-- The model's own loader: after `withFetchWord` the next step runs exactly that command (notes/assumptions/1.md). -/
def Obligations.FetchWordRunsTheCommand : Prop :=
  ∀ (s : State) (i : Instr), step (s.withFetchWord 32 (encode i).toNat) = exec i (s.start (encode i))

/-- R23, R304: nothing in an idle block advances by itself.
That the turns stand in `agenda` is the model's choice (notes/assumptions/1.md). -/
def Obligations.IdleBlockStaysAsItIs : Prop :=
  ∀ s : State, s.cmd = none →
    (s.agenda = [] → step s = .next s) ∧
    (∀ rest, s.agenda = .engine :: rest → step s = .next { s with agenda := rest })

/-- Every step keeps the invariant: canonical byte store, bytes of the three buffers only, `STATUS` one of its legal
values and in agreement with the pending command, and a poll owed while one is (R26, R61, R291, R323). -/
def Obligations.StepKeepsTheInvariant : Prop :=
  ∀ s t : State, s.inv = true → step s = .next t → t.inv = true

/-- The reset state meets the invariant (R36). -/
def Obligations.ResetMeetsTheInvariant : Prop := State.reset.inv = true

/-- R62, R63, R301, R323, R327: a step is answered exactly when the next turn is not a HOST access the spec gives no
meaning; no command ever stops the machine.
The agenda and the names of the refusals are the model's choices (notes/assumptions/1.md, 7.md). -/
def Obligations.StepStopsOnlyOnForbiddenAccess : Prop :=
  ∀ s : State, (∃ t, step s = .next t) ↔ nextTurnAllowed s = true

/-- R21: the configuration cannot change while the block runs. That a state carries its configuration is the model's
choice (DESIGN CHOICE, notes/assumptions/4.md), and that a reset, one of the turns covered here, keeps it is DEDUCED
(notes/assumptions/10.md). -/
def Obligations.ConfigurationNeverChanges : Prop :=
  ∀ s t : State, step s = .next t → t.cfg = s.cfg

/-- R22, R21: a command never writes an `ARG` register, nor anything outside R20's results and buffers. -/
def Obligations.CommandsKeepArguments : Prop :=
  ∀ (i : Instr) (s t : State), exec i s = .next t → s.SameFixed t

/-- R327, R294: from any state every command completes, with `BUSY = 0`, `DONE = 1`, no command pending and an error
code 0 to 3; and so does any word written to `CMD`.
That an empty agenda lets the command complete is the model's choice (notes/assumptions/1.md).
The spec marks this as its own inference (R327). -/
def Obligations.EveryCommandCompletes : Prop :=
  (∀ (i : Instr) (s : State), ∃ t, exec i s = .next t ∧ t.busy = false ∧ t.done = true ∧ t.cmd = none ∧
    t.err.toNat ≤ 3) ∧
  (∀ (s : State) (w : Word), s.agenda = [] → ∃ t, step (s.start w) = .next t ∧ t.busy = false ∧ t.done = true)

/-- R294, R296: a command that raises writes `STATUS` and the zeroed `RES` registers and nothing else. -/
def Obligations.FailedCommandWritesNothingElse : Prop :=
  ∀ (i : Instr) (s t : State), exec i s = .next t → t.err ≠ 0#4 → t = s.failed t.err

/-- R21: the result of a command is a function of the command, the `ARG` registers, the configuration and the buffer
contents; two states that agree on those get the same results. -/
def Obligations.ResultsDependOnInputsAlone : Prop :=
  ∀ (i : Instr) (s s' t t' : State), s.SameInputs s' → exec i s = .next t → exec i s' = .next t' → t.SameResults t'

/-- R34, R99, R326: a command line runs its command as one indivisible transition, whatever the number `n` of polls
that still see `BUSY = 1`; those polls read 1 and the last reads the final `STATUS`.
The agenda and the fields `seen` and `unpolled` are the model's choices (notes/assumptions/1.md, 3.md, 6.md, 7.md). -/
def Obligations.CommandLineIsAtomicForEveryLatency : Prop :=
  ∀ (s t : State) (n : Nat) (i : Instr) (rest : List Turn),
    s.busy = false → s.unpolled = false → s.agenda = commandLine s.cfg.base n i ++ rest → exec i s = .next t →
    Sys2Proof.core.run (n + 3) s =
      .next { t with agenda := rest, seen := t.status :: (List.replicate n 0x00000001#32 ++ s.seen) }

/-! ### The HOST's accesses and reset -/

/-- R61, R65, R22, R24, R25, R26: the registers at their offsets, read and written by an idle block whose last command
has been polled: `CMD` reads 0 and its write starts a command, `ARG` is read and written, writes of `STATUS` and `RES`
are ignored. That a read is recorded in `seen`, and the owed poll in `unpolled`, is the model's choice
(notes/assumptions/6.md, 7.md). -/
def Obligations.HostReadsAndWritesRegisters : Prop :=
  ∀ (s : State) (v : Word), s.busy = false → s.unpolled = false →
    (∀ x ∈ [(0x00, 0#32), (0x04, s.status), (0x08, s.arg0), (0x0C, s.arg1), (0x10, s.arg2), (0x14, s.arg3),
        (0x18, s.res0), (0x1C, s.res1), (0x20, s.res2), (0x24, s.res3)],
      hostAccess (.read .word (s.cfg.base + x.1)) s = .next { s with seen := x.2 :: s.seen }) ∧
    hostAccess (.write .word (s.cfg.base + 0x00) v) s =
      .next { s with cmd := some v, status := 0x00000001#32, unpolled := true } ∧
    hostAccess (.write .word (s.cfg.base + 0x08) v) s = .next { s with arg0 := v } ∧
    hostAccess (.write .word (s.cfg.base + 0x0C) v) s = .next { s with arg1 := v } ∧
    hostAccess (.write .word (s.cfg.base + 0x10) v) s = .next { s with arg2 := v } ∧
    hostAccess (.write .word (s.cfg.base + 0x14) v) s = .next { s with arg3 := v } ∧
    (∀ off ∈ [0x04, 0x18, 0x1C, 0x20, 0x24], hostAccess (.write .word (s.cfg.base + off) v) s = .next s)

/-- R61, R65: in an idle block whose last command has been polled, a byte of a buffer is read without change, and a write
changes that byte only. That a read is recorded in `seen` is the model's choice (notes/assumptions/6.md). -/
def Obligations.HostReadsAndWritesBufferBytes : Prop :=
  ∀ (s : State) (off : Nat) (v : Word), s.busy = false → s.unpolled = false →
    (0x1000 ≤ off ∧ off < 0x1930) ∨ (0x2000 ≤ off ∧ off < 0x2060) ∨ (0x2080 ≤ off ∧ off < 0x20E0) →
    hostAccess (.read .byte (s.cfg.base + off)) s = .next { s with seen := (0#24 ++ s.byte off) :: s.seen } ∧
    ∃ t, hostAccess (.write .byte (s.cfg.base + off) v) s = .next t ∧ t.byte off = v.extractLsb' 0 8 ∧
      (∀ k, k ≠ off → t.byte k = s.byte k) ∧ t = { s with mem := t.mem }

/-- R323, R34: from the write of `CMD` until a read of `STATUS` has returned `BUSY = 0`, the block answers a 32-bit read
of `STATUS` and refuses every other access to the window; the read that returns `BUSY = 0` ends the wait.
The refusal's name and the fields `seen` and `unpolled` are the model's choices (notes/assumptions/6.md, 7.md). -/
def Obligations.BusyBlockAnswersStatusOnly : Prop :=
  ∀ (s : State) (a : Access), s.busy = true ∨ s.unpolled = true →
    s.cfg.base ≤ a.addr → a.addr < s.cfg.base + 0x3000 →
    (a = .read .word (s.cfg.base + 0x04) → hostAccess a s = .next
      { s with seen := s.status :: s.seen, unpolled := s.unpolled && s.busy }) ∧
    (a ≠ .read .word (s.cfg.base + 0x04) → hostAccess a s = .refused (.busy a.addr))

/-- R62, R63: an idle block whose last command has been polled refuses an access to a hole, a register access that is
misaligned or not 32 bits wide, and a buffer access wider than a byte; outside the window there is no block.
The refusals' names and the fault are the model's choices (notes/assumptions/7.md). -/
def Obligations.MeaninglessAccessesAreRefused : Prop :=
  ∀ (s : State) (a : Access) (off : Nat), s.busy = false → s.unpolled = false → a.addr = s.cfg.base + off →
    ((0x28 ≤ off ∧ off < 0x1000) ∨ (0x1930 ≤ off ∧ off < 0x2000) ∨ (0x2060 ≤ off ∧ off < 0x2080) ∨
      (0x20E0 ≤ off ∧ off < 0x3000) → hostAccess a s = .refused (.hole a.addr)) ∧
    (off < 0x28 → off % 4 ≠ 0 ∨ a.width ≠ .word → hostAccess a s = .refused (.badAccess a.addr)) ∧
    ((0x1000 ≤ off ∧ off < 0x1930) ∨ (0x2000 ≤ off ∧ off < 0x2060) ∨ (0x2080 ≤ off ∧ off < 0x20E0) →
      a.width ≠ .byte → hostAccess a s = .refused (.badAccess a.addr)) ∧
    (0x3000 ≤ off → hostAccess a s = .fault (.outsideWindow a.addr))

/-- R320: reset, at any time, also while a command runs: registers and `STATUS` 0, the command abandoned, every buffer
byte an unspecified one that no earlier draw fixes; the configuration stays (R21).
The unspecified bytes are free values, drawn afresh by each reset (notes/assumptions/1.md, 2.md); that the configuration
stays and the HOST's wait ends is DEDUCED (notes/assumptions/10.md). -/
def Obligations.ResetAbandonsAndForgets : Prop :=
  ∀ (s : State) (rest : List Turn), s.agenda = .reset :: rest →
    ∃ t, step s = .next t ∧ t.arg0 = 0#32 ∧ t.arg1 = 0#32 ∧ t.arg2 = 0#32 ∧ t.arg3 = 0#32 ∧
      t.res0 = 0#32 ∧ t.res1 = 0#32 ∧ t.res2 = 0#32 ∧ t.res3 = 0#32 ∧ t.status = 0#32 ∧ t.cmd = none ∧
      t.unpolled = false ∧ (∀ off, t.byte off = Config.unspecifiedByte (s.resets + 1) off) ∧ t.cfg = s.cfg ∧ t.agenda = rest

/-- R36: `ARG`, `RES` and `STATUS` are 0 after reset and no command is pending.
The unspecified bytes are free values, and that the HOST owes no poll is DEDUCED (notes/assumptions/2.md, 10.md). -/
def Obligations.ResetRegistersAreZero : Prop :=
  State.reset.arg0 = 0#32 ∧ State.reset.arg1 = 0#32 ∧ State.reset.arg2 = 0#32 ∧ State.reset.arg3 = 0#32 ∧
  State.reset.res0 = 0#32 ∧ State.reset.res1 = 0#32 ∧ State.reset.res2 = 0#32 ∧ State.reset.res3 = 0#32 ∧
  State.reset.status = 0#32 ∧ State.reset.cmd = none ∧ State.reset.unpolled = false ∧
  ∀ off, State.reset.byte off = Config.unspecifiedByte 0 off

/-! ### NOP, CRC16, EDC -/

/-- R103: the all-zero word is NOP, which clears the `RES` registers and `ERR`, sets `DONE`, and touches no buffer. -/
def Obligations.NopClearsResults : Prop :=
  decode 0x00000000#32 = .ok .nop ∧
  ∀ s : State, exec .nop s = .next
    { s with res0 := 0#32, res1 := 0#32, res2 := 0#32, res3 := 0#32, status := 0x00000002#32, cmd := none }

/-- R127: CRC16 over a range inside `SUBD`, and `InvalidInput` (code 1) for any other range. -/
def Obligations.Crc16OfARange : Prop :=
  ∀ s : State,
    (s.arg0.toNat + s.arg1.toNat ≤ 96 → exec .crc16 s = .next
      { s with
        res0 := 0#16 ++ crc16 s.cfg.crc16Variant
          ((List.range s.arg1.toNat).map fun k => s.subd (s.arg0.toNat + k))
        res1 := 0#32, res2 := 0#32, res3 := 0#32, status := 0x00000002#32, cmd := none }) ∧
    (96 < s.arg0.toNat + s.arg1.toNat → exec .crc16 s = .next (s.failed 1#4))

/-- R128: EDC over a range inside `SEC` with a seed, and `InvalidInput` (code 1) for any other range. -/
def Obligations.EdcOfARange : Prop :=
  ∀ s : State,
    (s.arg1.toNat + s.arg2.toNat ≤ 2352 → exec .edc s = .next
      { s with
        res0 := edc s.arg0 (s.secBytes s.arg1.toNat s.arg2.toNat)
        res1 := 0#32, res2 := 0#32, res3 := 0#32, status := 0x00000002#32, cmd := none }) ∧
    (2352 < s.arg1.toNat + s.arg2.toNat → exec .edc s = .next (s.failed 1#4))

/-- R124, R121, R122: the table-driven update by one byte is eight shifts of the bit-serial register. -/
def Obligations.TableUpdateIsBitSerial : Prop :=
  (∀ (e : Word) (x : Byte), edcStep e x =
    Nat.repeat (fun r : Word => (r >>> 1) ^^^ (if r.getLsbD 0 then 0xD8018001#32 else 0#32)) 8 (e ^^^ (0#24 ++ x))) ∧
  (∀ (c : Half) (x : Byte), crc16Step .redbook c x =
    Nat.repeat (fun r : Half => (r <<< 1) ^^^ (if r.getLsbD 15 then 0x1021#16 else 0#16)) 8 (c ^^^ (x ++ 0#8))) ∧
  (∀ (c : Half) (x : Byte), crc16Step .kermit c x =
    Nat.repeat (fun r : Half => (r >>> 1) ^^^ (if r.getLsbD 0 then 0x8408#16 else 0#16)) 8 (c ^^^ (0#8 ++ x)))

/-- R132, laws 1 to 3: the EDC chains, is 0 over zeros, and is linear over GF(2) in seed and buffer together.
The spec marks this as its own inference (R132). -/
def Obligations.EdcLaws : Prop :=
  (∀ (e : Word) (x y : List Byte), edc (edc e x) y = edc e (x ++ y)) ∧
  (∀ n : Nat, edc 0#32 (List.replicate n 0#8) = 0#32) ∧
  (∀ (e f : Word) (x y : List Byte), x.length = y.length →
    edc (e ^^^ f) (List.zipWith (· ^^^ ·) x y) = edc e x ^^^ edc f y)

/-- R132, laws 4 to 6: a change of one byte changes the CRC-16 under either variant, its value over zeros, and its
residues.
The spec marks this as its own inference (R132). -/
def Obligations.Crc16Laws : Prop :=
  (∀ (v : Crc16Variant) (x y : List Byte) (a b : Byte), a ≠ b → crc16 v (x ++ a :: y) ≠ crc16 v (x ++ b :: y)) ∧
  (∀ n : Nat, crc16 .redbook (List.replicate n 0#8) = 0xFFFF#16 ∧ crc16 .kermit (List.replicate n 0#8) = 0#16) ∧
  (∀ x : List Byte,
    crc16 .redbook (x ++ [(crc16 .redbook x).extractLsb' 8 8, (crc16 .redbook x).extractLsb' 0 8]) = 0xE2F0#16 ∧
    crc16 .kermit (x ++ [(crc16 .kermit x).extractLsb' 0 8, (crc16 .kermit x).extractLsb' 8 8]) = 0#16)

/-- R130, R126, R129: EDC.GEN stores the EDC of the covered bytes little-endian and returns it; every other byte stays;
a mode without an EDC raises `UnsupportedField` (code 2). -/
def Obligations.EdcGenStoresTheEdc : Prop :=
  ∀ s : State,
    (∀ mode lo n p, (mode, lo, n, p) ∈ edcRows → ∃ t, exec (.edcGen mode) s = .next t ∧
      t.Completed (edc 0#32 (s.secBytes lo n)) 0#32 0#32 0#32 ∧ s.SameFixed t ∧
      t.secU32 p = edc 0#32 (s.secBytes lo n) ∧ SameBytesOutside s t (0x1000 + p) (0x1000 + p + 4)) ∧
    (∀ mode, mode = .audio ∨ mode = .cdMode2Formless → exec (.edcGen mode) s = .next (s.failed 2#4))

/-- R131: EDC.CHK compares the computed with the stored EDC and writes no buffer byte. -/
def Obligations.EdcChkCompares : Prop :=
  ∀ s : State,
    (∀ mode lo n p, (mode, lo, n, p) ∈ edcRows → exec (.edcChk mode) s = .next
      { s with
        res0 := 0#30 ++ BitVec.ofBool (s.secU32 p == 0#32) ++
          BitVec.ofBool (edc 0#32 (s.secBytes lo n) == s.secU32 p)
        res1 := edc 0#32 (s.secBytes lo n), res2 := s.secU32 p, res3 := 0#32
        status := 0x00000002#32, cmd := none }) ∧
    (∀ mode, mode = .audio ∨ mode = .cdMode2Formless → exec (.edcChk mode) s = .next (s.failed 2#4))

/-- R130, R131: the stored bytes are outside the covered range, so after EDC.GEN the check matches and a second EDC.GEN
gives the same EDC and the same sector. -/
def Obligations.EdcGenThenChkMatches : Prop :=
  ∀ (mode : TrackMode) (s t : State), exec (.edcGen mode) s = .next t → t.err = 0#4 →
    (∃ u, exec (.edcChk mode) t = .next u ∧ u.res0.getLsbD 0 = true ∧ u.res1 = t.res0 ∧ u.res2 = t.res0) ∧
    (∃ u, exec (.edcGen mode) t = .next u ∧ u.res0 = t.res0 ∧ ∀ off, u.byte off = t.byte off)

/-! ### ECC -/

/-- R150, R151: the two GF(256) tables. -/
def Obligations.FieldTables : Prop :=
  (∀ i : Byte, (eccF i).toNat = ((i.toNat <<< 1) ^^^ (if i.getLsbD 7 then 0x11D else 0)) &&& 0xFF) ∧
  (∀ i : Byte, eccB (i ^^^ eccF i) = i)

/-- R160: every row with its pair is a codeword with the roots 1 and α: the plain sum is 0, and so is the Horner value
under multiplication by α, which is `ECC_F`.
The spec marks this as its own inference (R160). -/
def Obligations.ParityRowsAreCodewords : Prop :=
  ∀ (l : List Byte) (p : EccParams) (m : Nat),
    let word := eccRow l p m ++ [(eccPair l p m).1, (eccPair l p m).2]
    word.foldl (fun acc d => acc ^^^ d) 0#8 = 0#8 ∧ word.foldl (fun acc d => eccF acc ^^^ d) 0#8 = 0#8

/-- R156: every logical byte below 2064 lies in exactly one P row, every one below 2236 in exactly one Q row, and the
rows visit no other.
The spec marks this as its own inference (R156). -/
def Obligations.EveryByteInOneRow : Prop :=
  (∀ i < 2064, ∃ m k : Nat, m < 86 ∧ (eccVisits pParams (eccStart pParams m) 24)[k]? = some i ∧
    ∀ m' k' : Nat, m' < 86 → (eccVisits pParams (eccStart pParams m') 24)[k']? = some i → m' = m ∧ k' = k) ∧
  (∀ i < 2236, ∃ m k : Nat, m < 52 ∧ (eccVisits qParams (eccStart qParams m) 43)[k]? = some i ∧
    ∀ m' k' : Nat, m' < 52 → (eccVisits qParams (eccStart qParams m') 43)[k']? = some i → m' = m ∧ k' = k) ∧
  (∀ m < 86, ∀ i ∈ eccVisits pParams (eccStart pParams m) 24, i < 2064) ∧
  (∀ m < 52, ∀ i ∈ eccVisits qParams (eccStart qParams m) 43, i < 2236)

/-- R162, R163, R154, R155, R158, R157: ECCP.GEN and ECCQ.GEN store the pairs of their rows over the bytes `SEC` held
before, and nothing else; any other mode raises `UnsupportedField` (code 2). -/
def Obligations.ParityGenerationStoresThePairs : Prop :=
  ∀ s : State,
    (∀ mode, mode = .cdMode1 ∨ mode = .cdMode2Form1 →
      (∃ t, exec (.eccpGen mode) s = .next t ∧ t.Completed 0#32 0#32 0#32 0#32 ∧ s.SameFixed t ∧
        t.PFieldIs (eccPair (s.parityInput mode) pParams) ∧ SameBytesOutside s t (0x1000 + 2076) (0x1000 + 2248)) ∧
      (∃ t, exec (.eccqGen mode) s = .next t ∧ t.Completed 0#32 0#32 0#32 0#32 ∧ s.SameFixed t ∧
        t.QFieldIs (eccPair (s.parityInput mode) qParams) ∧ SameBytesOutside s t (0x1000 + 2248) (0x1000 + 2352))) ∧
    (∀ mode, mode = .audio ∨ mode = .cdMode2Formless ∨ mode = .cdMode2Form2 →
      exec (.eccpGen mode) s = .next (s.failed 2#4) ∧ exec (.eccqGen mode) s = .next (s.failed 2#4))

/-- R164, R165, R157: ECCP.CHK and ECCQ.CHK say whether the stored parity is that of the sector, and write no buffer
byte. -/
def Obligations.ParityCheckCompares : Prop :=
  ∀ s : State,
    (∀ mode, mode = .cdMode1 ∨ mode = .cdMode2Form1 →
      (∃ b : Bool, (b = true ↔ s.PHolds mode) ∧ exec (.eccpChk mode) s = .next
        { s with
          res0 := 0#31 ++ BitVec.ofBool b, res1 := 0#32, res2 := 0#32, res3 := 0#32
          status := 0x00000002#32, cmd := none }) ∧
      (∃ b : Bool, (b = true ↔ s.QHolds mode) ∧ exec (.eccqChk mode) s = .next
        { s with
          res0 := 0#31 ++ BitVec.ofBool b, res1 := 0#32, res2 := 0#32, res3 := 0#32
          status := 0x00000002#32, cmd := none })) ∧
    (∀ mode, mode = .audio ∨ mode = .cdMode2Formless ∨ mode = .cdMode2Form2 →
      exec (.eccpChk mode) s = .next (s.failed 2#4) ∧ exec (.eccqChk mode) s = .next (s.failed 2#4))

/-- R167: in the modes that have an ECC, a parity that has just been generated checks.
The spec marks this as its own inference (R167). -/
def Obligations.GeneratedParityChecks : Prop :=
  ∀ (mode : TrackMode) (s t : State), mode = .cdMode1 ∨ mode = .cdMode2Form1 →
    (exec (.eccpGen mode) s = .next t → ∃ u, exec (.eccpChk mode) t = .next u ∧ u.res0 = 1#32) ∧
    (exec (.eccqGen mode) s = .next t → ∃ u, exec (.eccqChk mode) t = .next u ∧ u.res0 = 1#32)

/-! ### Subchannel -/

/-- R184, R181, R68: SUB.DEINT, bit by bit; only `SUBD` is written. -/
def Obligations.DeinterleaveBitByBit : Prop :=
  ∀ s : State, ∃ t, exec .subDeint s = .next t ∧ t.Completed 0#32 0#32 0#32 0#32 ∧ s.SameFixed t ∧
    (∀ c < 8, ∀ j < 12, ∀ k < 8,
      (t.subd (12 * c + j)).getLsbD (7 - k) = (s.subr (8 * j + k)).getLsbD (7 - c)) ∧
    SameBytesOutside s t 0x2080 0x20E0

/-- R185, R182, R68: SUB.INT, bit by bit; only `SUBR` is written. -/
def Obligations.InterleaveBitByBit : Prop :=
  ∀ s : State, ∃ t, exec .subInt s = .next t ∧ t.Completed 0#32 0#32 0#32 0#32 ∧ s.SameFixed t ∧
    (∀ c < 8, ∀ j < 12, ∀ k < 8,
      (t.subr (8 * j + k)).getLsbD (7 - c) = (s.subd (12 * c + j)).getLsbD (7 - k)) ∧
    SameBytesOutside s t 0x2000 0x2060

/-- R183: interleave and deinterleave undo each other on every 96-byte block. The spec marks the law as its own inference
(R183, "`[derived: from rules R181 and R182]`"). -/
def Obligations.InterleaveRoundTrip : Prop :=
  ∀ b : List Byte, b.length = 96 → inter (deint b) = b ∧ deint (inter b) = b

/-- R188, R189, R190: Q.PARSE: the fields, flags and CRC of the record in `SUBD[12..24)`; no byte changes. -/
def Obligations.QParseReadsTheRecord : Prop :=
  ∀ (bcd : Bool) (s : State),
    let q := fun i => s.subd (12 + i)
    let adr : BitVec 4 := (q 0).extractLsb' 0 4
    let conv : Bool := bcd && (adr == 1#4 || adr == 5#4)
    let v : Nat → Byte := fun i =>
      if conv then BitVec.ofNat 8 (((q i).extractLsb' 4 4).toNat * 10 + ((q i).extractLsb' 0 4).toNat) else q i
    let crc := crc16 s.cfg.crc16Variant (s.qBytes 10)
    exec (.qParse bcd) s = .next
      { s with
        res0 := crc ++ 0b000#3 ++ BitVec.ofBool conv ++ BitVec.ofBool (crc == q 10 ++ q 11) ++
          BitVec.ofBool (adr == 1#4 || adr == 2#4 || adr == 3#4 || adr == 5#4) ++
          (if s.arg0.toInt < 0 then 1#2 else if q 1 = 0xAA#8 then 2#2 else 0#2) ++ (q 0).extractLsb' 4 4 ++ adr
        res1 := 0x00#8 ++ q 6 ++ v 2 ++ v 1
        res2 := 0x00#8 ++ v 5 ++ v 4 ++ v 3
        res3 := 0x00#8 ++ v 9 ++ v 8 ++ v 7
        status := 0x00000002#32, cmd := none }

/-- R193, R192: Q.BUILD writes the ADR 1 record into `SUBD[12..24)` and its CRC into `RES0`; operands that BCD cannot
write raise `InvalidInput` (code 1). -/
def Obligations.QBuildWritesTheRecord : Prop :=
  ∀ s : State,
    let n := s.arg0.toInt + 150
    let rel := s.arg1.toNat
    let index := (s.arg2.extractLsb' 0 8).toNat
    let track := (s.arg2.extractLsb' 8 8).toNat
    ((track ≤ 99 ∧ index ≤ 99 ∧ rel ≤ 449999 ∧ 0 ≤ n ∧ n ≤ 449999) →
      ∃ t crc, exec .qBuild s = .next t ∧ t.Completed (0#16 ++ crc) 0#32 0#32 0#32 ∧ s.SameFixed t ∧
        t.HoldsQRecord n.toNat rel (s.arg2.extractLsb' 16 4) track index crc ∧
        SameBytesOutside s t (0x2080 + 12) (0x2080 + 24)) ∧
    (¬(track ≤ 99 ∧ index ≤ 99 ∧ rel ≤ 449999 ∧ 0 ≤ n ∧ n ≤ 449999) → exec .qBuild s = .next (s.failed 1#4))

/-- R194: what Q.BUILD builds, Q.PARSE with `bcd = 1` reads back. The spec marks the law as its own inference (R194,
"`[derived: from rules R188, R192 and 43_bcd_timecode.md rule R228]`"). -/
def Obligations.QParseReadsBackQBuild : Prop :=
  ∀ s t : State, exec .qBuild s = .next t → t.err = 0#4 →
    ∃ u, exec (.qParse true) t = .next u ∧
      u.res0.getLsbD 11 = true ∧ u.res0.extractLsb' 0 4 = 1#4 ∧ u.res0.getLsbD 10 = true ∧
      u.res0.getLsbD 12 = true ∧ u.res0.extractLsb' 4 4 = s.arg2.extractLsb' 16 4 ∧
      u.res1.extractLsb' 0 8 = s.arg2.extractLsb' 8 8 ∧ u.res1.extractLsb' 8 8 = s.arg2.extractLsb' 0 8 ∧
      u.res1.extractLsb' 16 8 = 0#8 ∧
      (u.res2.extractLsb' 0 8).toNat = s.arg1.toNat / 4500 ∧
      (u.res2.extractLsb' 8 8).toNat = s.arg1.toNat / 75 % 60 ∧
      (u.res2.extractLsb' 16 8).toNat = s.arg1.toNat % 75 ∧
      (u.res3.extractLsb' 0 8).toNat = (s.arg0.toInt + 150).toNat / 4500 ∧
      (u.res3.extractLsb' 8 8).toNat = (s.arg0.toInt + 150).toNat / 75 % 60 ∧
      (u.res3.extractLsb' 16 8).toNat = (s.arg0.toInt + 150).toNat % 75 ∧
      u.res0.extractLsb' 8 2 = if s.arg0.toInt < 0 then 1#2 else 0#2

/-- R196, R197: SUB.GEN writes channel P, the Q record, zeros, and the interleaved window; operands that BCD cannot
write raise `InvalidInput` (code 1). -/
def Obligations.SubGenWritesTheWindow : Prop :=
  ∀ s : State,
    let lba := s.arg0.toInt
    let stop : Int := match s.cfg.pregapModel with
      | .startPlusPregap => s.arg1.toInt + s.arg2.toNat
      | .start => s.arg1.toInt
    let rel := if lba < stop then stop - lba else lba - stop
    let index := (s.arg3.extractLsb' 0 8).toNat
    let track := (s.arg3.extractLsb' 8 8).toNat
    ((track ≤ 99 ∧ index ≤ 99 ∧ rel ≤ 449999 ∧ 0 ≤ lba + 150 ∧ lba + 150 ≤ 449999) →
      ∃ t crc, exec .subGen s = .next t ∧
        t.Completed (0#15 ++ BitVec.ofBool (decide (lba < stop)) ++ crc) 0#32 0#32 0#32 ∧ s.SameFixed t ∧
        (∀ i < 12, t.subd i = if lba < stop then 0xFF#8 else 0x00#8) ∧
        t.HoldsQRecord (lba + 150).toNat rel.toNat (s.arg3.extractLsb' 16 4) track index crc ∧
        (∀ i, 24 ≤ i → i < 96 → t.subd i = 0x00#8) ∧
        (∀ c < 8, ∀ j < 12, ∀ k < 8,
          (t.subr (8 * j + k)).getLsbD (7 - c) = (t.subd (12 * c + j)).getLsbD (7 - k)) ∧
        (∀ off, (off < 0x2000 ∨ (0x2060 ≤ off ∧ off < 0x2080) ∨ 0x20E0 ≤ off) → t.byte off = s.byte off)) ∧
    (¬(track ≤ 99 ∧ index ≤ 99 ∧ rel ≤ 449999 ∧ 0 ≤ lba + 150 ∧ lba + 150 ≤ 449999) →
      exec .subGen s = .next (s.failed 1#4))

/-! ### BCD and timecode -/

/-- R221: the byte conversions. -/
def Obligations.BcdConversions : Prop :=
  (∀ v ≤ 99, (toBcd v).toNat = ((v / 10) <<< 4) ||| (v % 10)) ∧
  (∀ b : Byte, fromBcd b = b.toNat / 16 * 10 + b.toNat % 16) ∧
  (∀ b : Byte, bcdValid b = true ↔ b.toNat / 16 ≤ 9 ∧ b.toNat % 16 ≤ 9)

/-- R224: BCD2BIN of `ARG0[7:0]`, for every byte, with its `valid` flag. -/
def Obligations.Bcd2binConverts : Prop :=
  ∀ s : State, exec .bcd2bin s = .next
    { s with
      res0 := BitVec.ofNat 32 (s.arg0.toNat / 16 % 16 * 10 + s.arg0.toNat % 16)
      res1 := if s.arg0.toNat / 16 % 16 ≤ 9 ∧ s.arg0.toNat % 16 ≤ 9 then 1#32 else 0#32
      res2 := 0#32, res3 := 0#32, status := 0x00000002#32, cmd := none }

/-- R225: BIN2BCD of 0 to 99, and `InvalidInput` (code 1) of any larger `ARG0`. -/
def Obligations.Bin2bcdConverts : Prop :=
  ∀ s : State,
    (s.arg0.toNat ≤ 99 → exec .bin2bcd s = .next
      { s with
        res0 := BitVec.ofNat 32 (s.arg0.toNat / 10 * 16 + s.arg0.toNat % 10)
        res1 := 0#32, res2 := 0#32, res3 := 0#32, status := 0x00000002#32, cmd := none }) ∧
    (99 < s.arg0.toNat → exec .bin2bcd s = .next (s.failed 1#4))

/-- R226: LBA2MSF on the LBAs -150 to 449849, and `InvalidInput` (code 1) on all others. -/
def Obligations.Lba2msfConverts : Prop :=
  ∀ s : State,
    (-150 ≤ s.arg0.toInt → s.arg0.toInt ≤ 449849 → ∃ n : Nat, (n : Int) = s.arg0.toInt + 150 ∧
      exec .lba2msf s = .next
        { s with
          res0 := 0x00#8 ++ toBcd (n % 75) ++ toBcd (n / 75 % 60) ++ toBcd (n / 4500)
          res1 := 0x00#8 ++ BitVec.ofNat 8 (n % 75) ++ BitVec.ofNat 8 (n / 75 % 60) ++ BitVec.ofNat 8 (n / 4500)
          res2 := 0#32, res3 := 0#32, status := 0x00000002#32, cmd := none }) ∧
    (s.arg0.toInt < -150 ∨ 449849 < s.arg0.toInt → exec .lba2msf s = .next (s.failed 1#4))

/-- R227: MSF2LBA of the three BCD bytes of `ARG0`, for every value, with its `valid` flag; no byte changes. -/
def Obligations.Msf2lbaConverts : Prop :=
  ∀ s : State,
    let m := s.arg0.extractLsb' 0 8
    let sec := s.arg0.extractLsb' 8 8
    let f := s.arg0.extractLsb' 16 8
    ∃ t, exec .msf2lba s = .next t ∧
      t.res0.toInt = ((fromBcd m * 60 + fromBcd sec) * 75 + fromBcd f : Nat) - (150 : Int) ∧
      t.Completed t.res0
        (if bcdValid m ∧ bcdValid sec ∧ bcdValid f ∧ fromBcd sec < 60 ∧ fromBcd f < 75 then 1#32 else 0#32)
        0#32 0#32 ∧
      s.SameFixed t ∧ ∀ off, t.byte off = s.byte off

/-- R228, its five laws; law 4 also on the commands: MSF2LBA of LBA2MSF's result is the LBA, with `valid = 1`.
The spec marks this as its own inference (R228). -/
def Obligations.TimecodeLaws : Prop :=
  (∀ v ≤ 99, fromBcd (toBcd v) = v ∧ bcdValid (toBcd v) = true) ∧
  (∀ b : Byte, bcdValid b = true → toBcd (fromBcd b) = b) ∧
  (∀ n ≤ 449999, (msf n).minute ≤ 99 ∧ (msf n).second ≤ 59 ∧ (msf n).frame ≤ 74 ∧
    ((msf n).minute * 60 + (msf n).second) * 75 + (msf n).frame = n) ∧
  (∀ lba : Int, -150 ≤ lba → lba ≤ 449849 → lbaOfMsf (msf (lba + 150).toNat) = lba) ∧
  (∀ s t : State, exec .lba2msf s = .next t → t.err = 0#4 →
    ∃ u, exec .msf2lba { t with arg0 := t.res0 } = .next u ∧ u.res0 = s.arg0 ∧ u.res1 = 1#32) ∧
  (∀ v < 10, toBcd v = BitVec.ofNat 8 v) ∧ toBcd 10 = 0x10#8

/-! ### Sector engine -/

/-- R242, R248, R244: without sync, or with a mode byte above 2, SEC.CHECK raises `InvalidInput` (code 1); a Mode 0
sector passes when every byte after the header is zero. -/
def Obligations.SecCheckUnclassedAndMode0 : Prop :=
  ∀ s : State,
    (¬s.SyncHolds ∨ 2 < (s.sec 15).toNat → exec .secCheck s = .next (s.failed 1#4)) ∧
    (s.SyncHolds → s.sec 15 = 0x00#8 →
      ∃ z : Bool, (z = true ↔ ∀ i, 16 ≤ i → i < 2352 → s.sec i = 0x00#8) ∧ exec .secCheck s = .next
        { s with
          res0 := if z then 0x00000103#32 else 0x00000102#32
          res1 := 0#32, res2 := 0#32, res3 := 0#32, status := 0x00000002#32, cmd := none })

/-- R242, R243, R245, R246, R249: SEC.CHECK on a Mode 1 and on a Mode 2 Form 1 sector: EDC, P and Q each checked on
its own, `overall` their conjunction. -/
def Obligations.SecCheckMode1AndForm1 : Prop :=
  ∀ (s : State) (mode : TrackMode) (cls : BitVec 3) (lo n p : Nat), s.SyncHolds →
    (mode = .cdMode1 ∧ s.sec 15 = 0x01#8 ∧ cls = 2#3 ∧ (lo, n, p) = (0x000, 2064, 0x810)) ∨
    (mode = .cdMode2Form1 ∧ s.sec 15 = 0x02#8 ∧ (s.sec 18).getLsbD 5 = false ∧ cls = 3#3 ∧
      (lo, n, p) = (0x010, 2056, 0x818)) →
    ∃ pm qm em : Bool, (pm = true ↔ s.PHolds mode) ∧ (qm = true ↔ s.QHolds mode) ∧
      (em = true ↔ edc 0#32 (s.secBytes lo n) = s.secU32 p) ∧ exec .secCheck s = .next
        { s with
          res0 := 0#21 ++ cls ++ (1#1 ++ BitVec.ofBool em) ++ (1#1 ++ BitVec.ofBool qm) ++
            (1#1 ++ BitVec.ofBool pm) ++ (1#1 ++ BitVec.ofBool (pm && qm && em))
          res1 := edc 0#32 (s.secBytes lo n), res2 := s.secU32 p, res3 := 0#32
          status := 0x00000002#32, cmd := none }

/-- R242, R243, R247, R249: SEC.CHECK on a Mode 2 Form 2 sector: the EDC alone, a stored 0 passing. -/
def Obligations.SecCheckForm2 : Prop :=
  ∀ s : State, s.SyncHolds → s.sec 15 = 0x02#8 → (s.sec 18).getLsbD 5 = true → exec .secCheck s = .next
    { s with
      res0 := if edc 0#32 (s.secBytes 0x010 2332) = s.secU32 0x92C ∨ s.secU32 0x92C = 0#32 then 0x000004C3#32
        else 0x00000482#32
      res1 := edc 0#32 (s.secBytes 0x010 2332), res2 := s.secU32 0x92C, res3 := 0#32
      status := 0x00000002#32, cmd := none }

/-- R250 to R254, R293: what SEC.BUILD leaves in `SEC`: sync, time and mode byte, the duplicated sub-header, the EDC of
what is there, zero reserved bytes, and P and Q of what is there; the user data and every other byte stay. `Audio`
raises `UnsupportedField` (code 2) first, a time without a header `InvalidInput` (code 1). -/
def Obligations.SecBuildLeavesAConsistentSector : Prop :=
  ∀ (mode : TrackMode) (s : State),
    (mode = .audio → exec (.secBuild mode) s = .next (s.failed 2#4)) ∧
    (mode ≠ .audio → s.arg0.toInt < -150 ∨ 449849 < s.arg0.toInt →
      exec (.secBuild mode) s = .next (s.failed 1#4)) ∧
    (mode ≠ .audio → -150 ≤ s.arg0.toInt → s.arg0.toInt ≤ 449849 →
      ∃ (t : State) (n : Nat), (n : Int) = s.arg0.toInt + 150 ∧ exec (.secBuild mode) s = .next t ∧
        t.Completed 0#32 0#32 0#32 0#32 ∧ s.SameFixed t ∧ t.SyncHolds ∧
        t.sec 12 = toBcd (n / 4500) ∧ t.sec 13 = toBcd (n / 75 % 60) ∧ t.sec 14 = toBcd (n % 75) ∧
        (t.sec 15 = if mode = .cdMode1 then 0x01#8 else 0x02#8) ∧
        (mode = .cdMode2Form1 ∨ mode = .cdMode2Form2 → ∀ i < 4,
          t.sec (16 + i) = (match s.cfg.subhdrDup with
            | .secondToFirst => s.sec (20 + i)
            | .firstToSecond => s.sec (16 + i)) ∧
          t.sec (20 + i) = t.sec (16 + i)) ∧
        (∀ lo k p, (mode, lo, k, p) ∈ edcRows → t.secU32 p = edc 0#32 (t.secBytes lo k)) ∧
        (mode = .cdMode1 → ∀ i, 0x814 ≤ i → i < 0x81C → t.sec i = 0x00#8) ∧
        (mode = .cdMode1 ∨ mode = .cdMode2Form1 → t.PHolds mode ∧ t.QHolds mode) ∧
        (∀ off, (∀ i, builtIndex mode i → off ≠ 0x1000 + i) → t.byte off = s.byte off))

/-- R255: a built sector checks, in the three modes that have checksums, where the sub-header names the form.
The spec marks this as its own inference (R255). -/
def Obligations.BuiltSectorChecks : Prop :=
  ∀ (mode : TrackMode) (s t : State), exec (.secBuild mode) s = .next t → t.err = 0#4 →
    (mode = .cdMode1 → ∃ u, exec .secCheck t = .next u ∧ u.res0 = 0x000002FF#32) ∧
    (mode = .cdMode2Form1 → (t.sec 18).getLsbD 5 = false →
      ∃ u, exec .secCheck t = .next u ∧ u.res0 = 0x000003FF#32) ∧
    (mode = .cdMode2Form2 → (t.sec 18).getLsbD 5 = true →
      ∃ u, exec .secCheck t = .next u ∧ u.res0 = 0x000004C3#32)

/-- R250: running SEC.BUILD twice with the same operands leaves `SEC` as after the first run. -/
def Obligations.SecBuildIsIdempotent : Prop :=
  ∀ (mode : TrackMode) (s t : State), exec (.secBuild mode) s = .next t → t.err = 0#4 →
    ∃ u, exec (.secBuild mode) t = .next u ∧ ∀ off, u.byte off = t.byte off

/-! ### Layout -/

/-- R273, R271: LAYOUT on the 24 supported entries of the table, and `UnsupportedField` (code 2) on all others. -/
def Obligations.LayoutLooksUpTheTable : Prop :=
  let table : List (TrackMode × FieldTag × Nat × Nat × Nat) :=
    [(.audio, .userData, 0, 2352, 0),
     (.cdMode1, .sync, 0, 12, 2340), (.cdMode1, .header, 12, 4, 2336), (.cdMode1, .eccP, 2076, 172, 104),
     (.cdMode1, .eccQ, 2248, 104, 0), (.cdMode1, .ecc, 2076, 276, 0), (.cdMode1, .edc, 2064, 4, 284),
     (.cdMode1, .userData, 16, 2048, 288),
     (.cdMode2Formless, .sync, 0, 12, 2340), (.cdMode2Formless, .header, 12, 4, 2336),
     (.cdMode2Formless, .userData, 16, 2336, 0),
     (.cdMode2Form1, .sync, 0, 12, 2340), (.cdMode2Form1, .header, 12, 4, 2336),
     (.cdMode2Form1, .subHeader, 16, 8, 2328), (.cdMode2Form1, .eccP, 2076, 172, 104),
     (.cdMode2Form1, .eccQ, 2248, 104, 0), (.cdMode2Form1, .ecc, 2076, 276, 0), (.cdMode2Form1, .edc, 2072, 4, 276),
     (.cdMode2Form1, .userData, 24, 2048, 280),
     (.cdMode2Form2, .sync, 0, 12, 2340), (.cdMode2Form2, .header, 12, 4, 2336),
     (.cdMode2Form2, .subHeader, 16, 8, 2328), (.cdMode2Form2, .edc, 2348, 4, 0),
     (.cdMode2Form2, .userData, 24, 2324, 4)]
  (∀ s : State, ∀ e ∈ table, exec (.layout e.1 e.2.1) s = .next
    { s with
      res0 := BitVec.ofNat 32 e.2.2.1, res1 := BitVec.ofNat 32 e.2.2.2.1, res2 := BitVec.ofNat 32 e.2.2.2.2
      res3 := 0#32, status := 0x00000002#32, cmd := none }) ∧
  (∀ (s : State) (mode : TrackMode) (tag : FieldTag), (∀ e ∈ table, ¬(e.1 = mode ∧ e.2.1 = tag)) →
    exec (.layout mode tag) s = .next (s.failed 2#4))

/-- R272, R270: a supported field, its offset and its skip make up the sector, and no field is empty. The equation is
the spec's own inference (R272, "The source does not state the equation"); that no field is empty is R270. -/
def Obligations.LayoutSumsToTheSector : Prop :=
  ∀ (mode : TrackMode) (tag : FieldTag) (e : FieldLayout), fieldLayout mode tag = some e →
    e.offset + e.length + e.skip = 2352 ∧ 0 < e.length

/-- R274: the EDC and parity offsets written into the command rules agree with the layout table.
The spec marks this as its own inference (R274). -/
def Obligations.LayoutAgreesWithTheEngine : Prop :=
  (∀ mode lo n p, (mode, lo, n, p) ∈ edcRows → ∃ k, fieldLayout mode .edc = some ⟨p, 4, k⟩) ∧
  (∀ mode, mode = .cdMode1 ∨ mode = .cdMode2Form1 →
    fieldLayout mode .eccP = some ⟨2076, 2 * 86, 104⟩ ∧ fieldLayout mode .eccQ = some ⟨2248, 2 * 52, 0⟩) ∧
  (∀ mode, edcField mode = none → fieldLayout mode .edc = none)
end

