-- ==== Sys2Proof/Laws/Memory.lean ====
section
/-! SUPPORT. The byte store: reading after writing, reading a run, and the canonical form. -/

namespace Sys2Proof.Machine

/-! ### Reading -/

@[simp] theorem Memory.get?_nil (k : Nat) : Memory.get? [] k = none := rfl

theorem Memory.get?_cons (c : Host.Cell) (m : Memory) (k : Nat) :
    Memory.get? (c :: m) k = if c.1 < k then Memory.get? m k else if c.1 = k then some c.2 else none := by
  by_cases h : c.1 < k <;> simp [Memory.get?, h]

theorem Memory.get?_dropWhile (m : Memory) {j k : Nat} (h : j ≤ k) :
    Memory.get? (m.dropWhile fun c => decide (c.1 < j)) k = Memory.get? m k := by
  induction m with
  | nil => rfl
  | cons c m ih =>
    by_cases hc : c.1 < j
    · simp [hc, ih, Memory.get?_cons, Nat.lt_of_lt_of_le hc h]
    · simp [hc]

/-- `readRun` is `get?` at each offset, `fill` standing in where nothing was written. -/
theorem Memory.readRun_eq_map (fill : Nat → Byte) (m : Memory) (k n : Nat) :
    Memory.readRun fill m k n = (List.range n).map fun i => (m.get? (k + i)).getD (fill (k + i)) := by
  induction n generalizing m k with
  | zero => rfl
  | succ n ih =>
    rw [Memory.readRun, ih, List.range_succ_eq_map]
    simp only [List.map_cons, List.map_map, Nat.add_zero, Memory.get?_dropWhile m (Nat.le_refl k)]
    refine congrArg _ (List.map_congr_left fun i _ => ?_)
    rw [Memory.get?_dropWhile m (by omega), Function.comp, Nat.succ_eq_add_one,
      show k + 1 + i = k + (i + 1) by omega]

@[simp] theorem Memory.readRun_length (fill : Nat → Byte) (m : Memory) (k n : Nat) :
    (Memory.readRun fill m k n).length = n := by
  simp [Memory.readRun_eq_map]

/-! ### Reading after writing -/

theorem Memory.get?_cellsFrom_append (lo : Nat) (bs : List Byte) (r : Memory) (k : Nat) (h : lo ≤ k) :
    Memory.get? (cellsFrom lo bs ++ r) k =
      if k < lo + bs.length then bs[k - lo]? else Memory.get? r k := by
  induction bs generalizing lo with
  | nil => simp [cellsFrom, Nat.not_lt.mpr h]
  | cons b bs ih =>
    rw [cellsFrom, List.cons_append, Memory.get?_cons]
    by_cases hk : lo < k
    · rw [if_pos hk, ih (lo + 1) (by omega), show k - lo = (k - (lo + 1)) + 1 by omega, List.getElem?_cons_succ,
        List.length_cons, show lo + 1 + bs.length = lo + (bs.length + 1) by omega]
    · obtain rfl : lo = k := by omega
      simp

theorem Memory.get?_cellsFrom_below (lo : Nat) (b : Byte) (bs : List Byte) (r : Memory) (k : Nat) (h : k < lo) :
    Memory.get? (cellsFrom lo (b :: bs) ++ r) k = none := by
  simp [cellsFrom, Memory.get?_cons, show ¬ lo < k by omega, show lo ≠ k by omega]

theorem Memory.get?_takeWhile_append_of_le (m r : Memory) {lo k : Nat} (h : lo ≤ k) :
    Memory.get? (m.takeWhile (fun c => decide (c.1 < lo)) ++ r) k = Memory.get? r k := by
  induction m with
  | nil => rfl
  | cons c m ih =>
    by_cases hc : c.1 < lo
    · simp [hc, Memory.get?_cons, Nat.lt_of_lt_of_le hc h, ih]
    · simp [hc]

theorem Memory.get?_takeWhile_append_of_lt (m r : Memory) {lo k : Nat} (h : k < lo)
    (hr : Memory.get? r k = none) :
    Memory.get? (m.takeWhile (fun c => decide (c.1 < lo)) ++ r) k = Memory.get? m k := by
  induction m with
  | nil => simpa using hr
  | cons c m ih =>
    by_cases hc : c.1 < lo
    · simp [hc, Memory.get?_cons, ih]
    · simp [hc, Memory.get?_cons, hr, show ¬ c.1 < k by omega, show c.1 ≠ k by omega]

/-- Everything a splice does to later reads: the spliced bytes in their range, every other offset as before. -/
theorem Memory.get?_splice (m : Memory) (lo : Nat) (bs : List Byte) (k : Nat) :
    (m.splice lo bs).get? k =
      if lo ≤ k ∧ k < lo + bs.length then bs[k - lo]? else m.get? k := by
  unfold Memory.splice
  rw [List.append_assoc]
  by_cases h : lo ≤ k
  · rw [Memory.get?_takeWhile_append_of_le _ _ h, Memory.get?_cellsFrom_append _ _ _ _ h]
    by_cases hk : k < lo + bs.length
    · simp [h, hk]
    · simp [hk, Memory.get?_dropWhile m (Nat.not_lt.mp hk)]
  · cases bs with
    | nil => simp [cellsFrom, h]
    | cons b bs =>
      rw [Memory.get?_takeWhile_append_of_lt _ _ (Nat.not_le.mp h)
        (Memory.get?_cellsFrom_below _ _ _ _ _ (Nat.not_le.mp h))]
      simp [h]

/-! ### The canonical form -/

theorem Memory.wf_iff_pairwise (m : Memory) : m.wf = true ↔ m.Pairwise fun c d => c.1 < d.1 := by
  induction m with
  | nil => simp [Memory.wf]
  | cons c m ih =>
    cases m with
    | nil => simp [Memory.wf]
    | cons d m =>
      rw [Memory.wf, Bool.and_eq_true, decide_eq_true_iff, ih, List.pairwise_cons (a := c)]
      refine and_congr_left fun h => ⟨fun hcd x hx => ?_, fun hc => hc d (by simp)⟩
      rcases List.mem_cons.mp hx with rfl | hx
      · exact hcd
      · exact hcd.trans (List.rel_of_pairwise_cons h hx)

theorem mem_cellsFrom {c : Host.Cell} {lo : Nat} {bs : List Byte} (h : c ∈ cellsFrom lo bs) :
    lo ≤ c.1 ∧ c.1 < lo + bs.length := by
  induction bs generalizing lo with
  | nil => simp [cellsFrom] at h
  | cons b bs ih =>
    rcases List.mem_cons.mp h with rfl | h
    · simp
    · have := ih h
      simp only [List.length_cons]
      omega

theorem cellsFrom_pairwise (lo : Nat) (bs : List Byte) : (cellsFrom lo bs).Pairwise fun c d => c.1 < d.1 := by
  induction bs generalizing lo with
  | nil => exact .nil
  | cons b bs ih => exact .cons (fun c hc => (mem_cellsFrom hc).1) (ih (lo + 1))

/-- A cell of a spliced store is a spliced byte or a cell of the store before. -/
theorem Memory.mem_splice {m : Memory} {lo : Nat} {bs : List Byte} {c : Host.Cell} (h : c ∈ m.splice lo bs) :
    c ∈ m ∨ (lo ≤ c.1 ∧ c.1 < lo + bs.length) := by
  rcases List.mem_append.mp h with h | h
  · rcases List.mem_append.mp h with h | h
    · exact .inl ((List.takeWhile_prefix _).subset h)
    · exact .inr (mem_cellsFrom h)
  · exact .inl ((List.dropWhile_suffix _).subset h)

theorem Memory.le_of_mem_dropWhile {m : Memory} (hm : m.Pairwise fun c d => c.1 < d.1) {hi : Nat} {c : Host.Cell}
    (h : c ∈ m.dropWhile fun c => decide (c.1 < hi)) : hi ≤ c.1 := by
  induction m with
  | nil => simp at h
  | cons d m ih =>
    by_cases hd : d.1 < hi
    · exact ih hm.of_cons (by simpa [hd] using h)
    · rcases List.mem_cons.mp (by simpa [hd] using h) with rfl | h
      · omega
      · exact (Nat.not_lt.mp hd).trans (List.rel_of_pairwise_cons hm h).le

/-- Every write keeps the canonical form. -/
theorem Memory.wf_splice {m : Memory} (hm : m.wf = true) (lo : Nat) (bs : List Byte) :
    (m.splice lo bs).wf = true := by
  rw [Memory.wf_iff_pairwise] at hm ⊢
  have hlt : ∀ c ∈ m.takeWhile (fun c => decide (c.1 < lo)), c.1 < lo := fun c hc => by
    simpa using List.mem_takeWhile_imp hc
  refine List.pairwise_append.mpr ⟨List.pairwise_append.mpr
    ⟨hm.sublist (List.takeWhile_sublist _), cellsFrom_pairwise lo bs, fun c hc d hd => ?_⟩,
    hm.sublist (List.dropWhile_sublist _), fun c hc d hd => ?_⟩
  · exact (hlt c hc).trans_le (mem_cellsFrom hd).1
  · have hd := Memory.le_of_mem_dropWhile hm hd
    rcases List.mem_append.mp hc with hc | hc
    · have := hlt c hc
      omega
    · have := (mem_cellsFrom hc).2
      omega

end Sys2Proof.Machine
end

