-- ==== Sys2Proof/Laws/State.lean ====
section
/-! SUPPORT. What each shared operation does to each field of `State`: one lemma per field per update, true by
definition, so that no later proof unfolds a record update. -/

namespace Sys2Proof.Machine

variable (s : State)

/-! ### `State.start` -/

@[simp] theorem State.start_arg0 (w : Word) : (s.start w).arg0 = s.arg0 := rfl
@[simp] theorem State.start_arg1 (w : Word) : (s.start w).arg1 = s.arg1 := rfl
@[simp] theorem State.start_arg2 (w : Word) : (s.start w).arg2 = s.arg2 := rfl
@[simp] theorem State.start_arg3 (w : Word) : (s.start w).arg3 = s.arg3 := rfl
@[simp] theorem State.start_res0 (w : Word) : (s.start w).res0 = s.res0 := rfl
@[simp] theorem State.start_res1 (w : Word) : (s.start w).res1 = s.res1 := rfl
@[simp] theorem State.start_res2 (w : Word) : (s.start w).res2 = s.res2 := rfl
@[simp] theorem State.start_res3 (w : Word) : (s.start w).res3 = s.res3 := rfl
@[simp] theorem State.start_status (w : Word) : (s.start w).status = 0x01#32 := rfl
@[simp] theorem State.start_cmd (w : Word) : (s.start w).cmd = some w := rfl
@[simp] theorem State.start_mem (w : Word) : (s.start w).mem = s.mem := rfl
@[simp] theorem State.start_unpolled (w : Word) : (s.start w).unpolled = true := rfl
@[simp] theorem State.start_cfg (w : Word) : (s.start w).cfg = s.cfg := rfl
@[simp] theorem State.start_resets (w : Word) : (s.start w).resets = s.resets := rfl
@[simp] theorem State.start_agenda (w : Word) : (s.start w).agenda = s.agenda := rfl
@[simp] theorem State.start_seen (w : Word) : (s.start w).seen = s.seen := rfl

/-! ### `State.finish` -/

@[simp] theorem State.finish_arg0 (r0 r1 r2 r3 : Word) : (s.finish r0 r1 r2 r3).arg0 = s.arg0 := rfl
@[simp] theorem State.finish_arg1 (r0 r1 r2 r3 : Word) : (s.finish r0 r1 r2 r3).arg1 = s.arg1 := rfl
@[simp] theorem State.finish_arg2 (r0 r1 r2 r3 : Word) : (s.finish r0 r1 r2 r3).arg2 = s.arg2 := rfl
@[simp] theorem State.finish_arg3 (r0 r1 r2 r3 : Word) : (s.finish r0 r1 r2 r3).arg3 = s.arg3 := rfl
@[simp] theorem State.finish_res0 (r0 r1 r2 r3 : Word) : (s.finish r0 r1 r2 r3).res0 = r0 := rfl
@[simp] theorem State.finish_res1 (r0 r1 r2 r3 : Word) : (s.finish r0 r1 r2 r3).res1 = r1 := rfl
@[simp] theorem State.finish_res2 (r0 r1 r2 r3 : Word) : (s.finish r0 r1 r2 r3).res2 = r2 := rfl
@[simp] theorem State.finish_res3 (r0 r1 r2 r3 : Word) : (s.finish r0 r1 r2 r3).res3 = r3 := rfl
@[simp] theorem State.finish_status (r0 r1 r2 r3 : Word) : (s.finish r0 r1 r2 r3).status = 0x02#32 := rfl
@[simp] theorem State.finish_cmd (r0 r1 r2 r3 : Word) : (s.finish r0 r1 r2 r3).cmd = none := rfl
@[simp] theorem State.finish_mem (r0 r1 r2 r3 : Word) : (s.finish r0 r1 r2 r3).mem = s.mem := rfl
@[simp] theorem State.finish_unpolled (r0 r1 r2 r3 : Word) : (s.finish r0 r1 r2 r3).unpolled = s.unpolled := rfl
@[simp] theorem State.finish_cfg (r0 r1 r2 r3 : Word) : (s.finish r0 r1 r2 r3).cfg = s.cfg := rfl
@[simp] theorem State.finish_resets (r0 r1 r2 r3 : Word) : (s.finish r0 r1 r2 r3).resets = s.resets := rfl
@[simp] theorem State.finish_agenda (r0 r1 r2 r3 : Word) : (s.finish r0 r1 r2 r3).agenda = s.agenda := rfl
@[simp] theorem State.finish_seen (r0 r1 r2 r3 : Word) : (s.finish r0 r1 r2 r3).seen = s.seen := rfl

/-! ### `State.raise` -/

@[simp] theorem State.raise_arg0 (k : ErrorKind) : (s.raise k).arg0 = s.arg0 := rfl
@[simp] theorem State.raise_arg1 (k : ErrorKind) : (s.raise k).arg1 = s.arg1 := rfl
@[simp] theorem State.raise_arg2 (k : ErrorKind) : (s.raise k).arg2 = s.arg2 := rfl
@[simp] theorem State.raise_arg3 (k : ErrorKind) : (s.raise k).arg3 = s.arg3 := rfl
@[simp] theorem State.raise_res0 (k : ErrorKind) : (s.raise k).res0 = 0#32 := rfl
@[simp] theorem State.raise_res1 (k : ErrorKind) : (s.raise k).res1 = 0#32 := rfl
@[simp] theorem State.raise_res2 (k : ErrorKind) : (s.raise k).res2 = 0#32 := rfl
@[simp] theorem State.raise_res3 (k : ErrorKind) : (s.raise k).res3 = 0#32 := rfl
@[simp] theorem State.raise_status (k : ErrorKind) : (s.raise k).status = statusWord (errorCode k) true false := rfl
@[simp] theorem State.raise_cmd (k : ErrorKind) : (s.raise k).cmd = none := rfl
@[simp] theorem State.raise_mem (k : ErrorKind) : (s.raise k).mem = s.mem := rfl
@[simp] theorem State.raise_unpolled (k : ErrorKind) : (s.raise k).unpolled = s.unpolled := rfl
@[simp] theorem State.raise_cfg (k : ErrorKind) : (s.raise k).cfg = s.cfg := rfl
@[simp] theorem State.raise_resets (k : ErrorKind) : (s.raise k).resets = s.resets := rfl
@[simp] theorem State.raise_agenda (k : ErrorKind) : (s.raise k).agenda = s.agenda := rfl
@[simp] theorem State.raise_seen (k : ErrorKind) : (s.raise k).seen = s.seen := rfl

/-! ### `State.store` -/

@[simp] theorem State.store_arg0 (off : Nat) (bs : List Byte) : (s.store off bs).arg0 = s.arg0 := rfl
@[simp] theorem State.store_arg1 (off : Nat) (bs : List Byte) : (s.store off bs).arg1 = s.arg1 := rfl
@[simp] theorem State.store_arg2 (off : Nat) (bs : List Byte) : (s.store off bs).arg2 = s.arg2 := rfl
@[simp] theorem State.store_arg3 (off : Nat) (bs : List Byte) : (s.store off bs).arg3 = s.arg3 := rfl
@[simp] theorem State.store_res0 (off : Nat) (bs : List Byte) : (s.store off bs).res0 = s.res0 := rfl
@[simp] theorem State.store_res1 (off : Nat) (bs : List Byte) : (s.store off bs).res1 = s.res1 := rfl
@[simp] theorem State.store_res2 (off : Nat) (bs : List Byte) : (s.store off bs).res2 = s.res2 := rfl
@[simp] theorem State.store_res3 (off : Nat) (bs : List Byte) : (s.store off bs).res3 = s.res3 := rfl
@[simp] theorem State.store_status (off : Nat) (bs : List Byte) : (s.store off bs).status = s.status := rfl
@[simp] theorem State.store_cmd (off : Nat) (bs : List Byte) : (s.store off bs).cmd = s.cmd := rfl
@[simp] theorem State.store_mem (off : Nat) (bs : List Byte) : (s.store off bs).mem = s.mem.splice off bs := rfl
@[simp] theorem State.store_unpolled (off : Nat) (bs : List Byte) : (s.store off bs).unpolled = s.unpolled := rfl
@[simp] theorem State.store_cfg (off : Nat) (bs : List Byte) : (s.store off bs).cfg = s.cfg := rfl
@[simp] theorem State.store_resets (off : Nat) (bs : List Byte) : (s.store off bs).resets = s.resets := rfl
@[simp] theorem State.store_agenda (off : Nat) (bs : List Byte) : (s.store off bs).agenda = s.agenda := rfl
@[simp] theorem State.store_seen (off : Nat) (bs : List Byte) : (s.store off bs).seen = s.seen := rfl

/-! ### `State.noteRead` -/

@[simp] theorem State.noteRead_arg0 (v : Word) : (s.noteRead v).arg0 = s.arg0 := rfl
@[simp] theorem State.noteRead_arg1 (v : Word) : (s.noteRead v).arg1 = s.arg1 := rfl
@[simp] theorem State.noteRead_arg2 (v : Word) : (s.noteRead v).arg2 = s.arg2 := rfl
@[simp] theorem State.noteRead_arg3 (v : Word) : (s.noteRead v).arg3 = s.arg3 := rfl
@[simp] theorem State.noteRead_res0 (v : Word) : (s.noteRead v).res0 = s.res0 := rfl
@[simp] theorem State.noteRead_res1 (v : Word) : (s.noteRead v).res1 = s.res1 := rfl
@[simp] theorem State.noteRead_res2 (v : Word) : (s.noteRead v).res2 = s.res2 := rfl
@[simp] theorem State.noteRead_res3 (v : Word) : (s.noteRead v).res3 = s.res3 := rfl
@[simp] theorem State.noteRead_status (v : Word) : (s.noteRead v).status = s.status := rfl
@[simp] theorem State.noteRead_cmd (v : Word) : (s.noteRead v).cmd = s.cmd := rfl
@[simp] theorem State.noteRead_mem (v : Word) : (s.noteRead v).mem = s.mem := rfl
@[simp] theorem State.noteRead_unpolled (v : Word) : (s.noteRead v).unpolled = s.unpolled := rfl
@[simp] theorem State.noteRead_cfg (v : Word) : (s.noteRead v).cfg = s.cfg := rfl
@[simp] theorem State.noteRead_resets (v : Word) : (s.noteRead v).resets = s.resets := rfl
@[simp] theorem State.noteRead_agenda (v : Word) : (s.noteRead v).agenda = s.agenda := rfl
@[simp] theorem State.noteRead_seen (v : Word) : (s.noteRead v).seen = v :: s.seen := rfl

/-! ### `State.poll` -/

@[simp] theorem State.poll_arg0 : (s.poll).arg0 = s.arg0 := rfl
@[simp] theorem State.poll_arg1 : (s.poll).arg1 = s.arg1 := rfl
@[simp] theorem State.poll_arg2 : (s.poll).arg2 = s.arg2 := rfl
@[simp] theorem State.poll_arg3 : (s.poll).arg3 = s.arg3 := rfl
@[simp] theorem State.poll_res0 : (s.poll).res0 = s.res0 := rfl
@[simp] theorem State.poll_res1 : (s.poll).res1 = s.res1 := rfl
@[simp] theorem State.poll_res2 : (s.poll).res2 = s.res2 := rfl
@[simp] theorem State.poll_res3 : (s.poll).res3 = s.res3 := rfl
@[simp] theorem State.poll_status : (s.poll).status = s.status := rfl
@[simp] theorem State.poll_cmd : (s.poll).cmd = s.cmd := rfl
@[simp] theorem State.poll_mem : (s.poll).mem = s.mem := rfl
@[simp] theorem State.poll_unpolled : (s.poll).unpolled = (s.unpolled && s.busy) := rfl
@[simp] theorem State.poll_cfg : (s.poll).cfg = s.cfg := rfl
@[simp] theorem State.poll_resets : (s.poll).resets = s.resets := rfl
@[simp] theorem State.poll_agenda : (s.poll).agenda = s.agenda := rfl
@[simp] theorem State.poll_seen : (s.poll).seen = s.seen := rfl

/-! ### `State.platformReset` -/

@[simp] theorem State.platformReset_arg0 : (s.platformReset).arg0 = 0#32 := rfl
@[simp] theorem State.platformReset_arg1 : (s.platformReset).arg1 = 0#32 := rfl
@[simp] theorem State.platformReset_arg2 : (s.platformReset).arg2 = 0#32 := rfl
@[simp] theorem State.platformReset_arg3 : (s.platformReset).arg3 = 0#32 := rfl
@[simp] theorem State.platformReset_res0 : (s.platformReset).res0 = 0#32 := rfl
@[simp] theorem State.platformReset_res1 : (s.platformReset).res1 = 0#32 := rfl
@[simp] theorem State.platformReset_res2 : (s.platformReset).res2 = 0#32 := rfl
@[simp] theorem State.platformReset_res3 : (s.platformReset).res3 = 0#32 := rfl
@[simp] theorem State.platformReset_status : (s.platformReset).status = 0#32 := rfl
@[simp] theorem State.platformReset_cmd : (s.platformReset).cmd = none := rfl
@[simp] theorem State.platformReset_mem : (s.platformReset).mem = [] := rfl
@[simp] theorem State.platformReset_unpolled : (s.platformReset).unpolled = false := rfl
@[simp] theorem State.platformReset_cfg : (s.platformReset).cfg = s.cfg := rfl
@[simp] theorem State.platformReset_resets : (s.platformReset).resets = s.resets + 1 := rfl
@[simp] theorem State.platformReset_agenda : (s.platformReset).agenda = s.agenda := rfl
@[simp] theorem State.platformReset_seen : (s.platformReset).seen = s.seen := rfl

/-! ### `State.setArg` and the readers of `ARG` and `RES` -/

@[simp] theorem State.arg_zero : s.arg 0 = s.arg0 := rfl
@[simp] theorem State.arg_one : s.arg 1 = s.arg1 := rfl
@[simp] theorem State.arg_two : s.arg 2 = s.arg2 := rfl
@[simp] theorem State.arg_three : s.arg 3 = s.arg3 := rfl
@[simp] theorem State.res_zero : s.res 0 = s.res0 := rfl
@[simp] theorem State.res_one : s.res 1 = s.res1 := rfl
@[simp] theorem State.res_two : s.res 2 = s.res2 := rfl
@[simp] theorem State.res_three : s.res 3 = s.res3 := rfl
@[simp] theorem State.setArg_zero_arg0 (v : Word) : (s.setArg 0 v).arg0 = v := rfl
@[simp] theorem State.setArg_zero_arg1 (v : Word) : (s.setArg 0 v).arg1 = s.arg1 := rfl
@[simp] theorem State.setArg_zero_arg2 (v : Word) : (s.setArg 0 v).arg2 = s.arg2 := rfl
@[simp] theorem State.setArg_zero_arg3 (v : Word) : (s.setArg 0 v).arg3 = s.arg3 := rfl
@[simp] theorem State.setArg_zero_res0 (v : Word) : (s.setArg 0 v).res0 = s.res0 := rfl
@[simp] theorem State.setArg_zero_res1 (v : Word) : (s.setArg 0 v).res1 = s.res1 := rfl
@[simp] theorem State.setArg_zero_res2 (v : Word) : (s.setArg 0 v).res2 = s.res2 := rfl
@[simp] theorem State.setArg_zero_res3 (v : Word) : (s.setArg 0 v).res3 = s.res3 := rfl
@[simp] theorem State.setArg_zero_status (v : Word) : (s.setArg 0 v).status = s.status := rfl
@[simp] theorem State.setArg_zero_cmd (v : Word) : (s.setArg 0 v).cmd = s.cmd := rfl
@[simp] theorem State.setArg_zero_mem (v : Word) : (s.setArg 0 v).mem = s.mem := rfl
@[simp] theorem State.setArg_zero_unpolled (v : Word) : (s.setArg 0 v).unpolled = s.unpolled := rfl
@[simp] theorem State.setArg_zero_cfg (v : Word) : (s.setArg 0 v).cfg = s.cfg := rfl
@[simp] theorem State.setArg_zero_resets (v : Word) : (s.setArg 0 v).resets = s.resets := rfl
@[simp] theorem State.setArg_zero_agenda (v : Word) : (s.setArg 0 v).agenda = s.agenda := rfl
@[simp] theorem State.setArg_zero_seen (v : Word) : (s.setArg 0 v).seen = s.seen := rfl
@[simp] theorem State.setArg_one_arg0 (v : Word) : (s.setArg 1 v).arg0 = s.arg0 := rfl
@[simp] theorem State.setArg_one_arg1 (v : Word) : (s.setArg 1 v).arg1 = v := rfl
@[simp] theorem State.setArg_one_arg2 (v : Word) : (s.setArg 1 v).arg2 = s.arg2 := rfl
@[simp] theorem State.setArg_one_arg3 (v : Word) : (s.setArg 1 v).arg3 = s.arg3 := rfl
@[simp] theorem State.setArg_one_res0 (v : Word) : (s.setArg 1 v).res0 = s.res0 := rfl
@[simp] theorem State.setArg_one_res1 (v : Word) : (s.setArg 1 v).res1 = s.res1 := rfl
@[simp] theorem State.setArg_one_res2 (v : Word) : (s.setArg 1 v).res2 = s.res2 := rfl
@[simp] theorem State.setArg_one_res3 (v : Word) : (s.setArg 1 v).res3 = s.res3 := rfl
@[simp] theorem State.setArg_one_status (v : Word) : (s.setArg 1 v).status = s.status := rfl
@[simp] theorem State.setArg_one_cmd (v : Word) : (s.setArg 1 v).cmd = s.cmd := rfl
@[simp] theorem State.setArg_one_mem (v : Word) : (s.setArg 1 v).mem = s.mem := rfl
@[simp] theorem State.setArg_one_unpolled (v : Word) : (s.setArg 1 v).unpolled = s.unpolled := rfl
@[simp] theorem State.setArg_one_cfg (v : Word) : (s.setArg 1 v).cfg = s.cfg := rfl
@[simp] theorem State.setArg_one_resets (v : Word) : (s.setArg 1 v).resets = s.resets := rfl
@[simp] theorem State.setArg_one_agenda (v : Word) : (s.setArg 1 v).agenda = s.agenda := rfl
@[simp] theorem State.setArg_one_seen (v : Word) : (s.setArg 1 v).seen = s.seen := rfl
@[simp] theorem State.setArg_two_arg0 (v : Word) : (s.setArg 2 v).arg0 = s.arg0 := rfl
@[simp] theorem State.setArg_two_arg1 (v : Word) : (s.setArg 2 v).arg1 = s.arg1 := rfl
@[simp] theorem State.setArg_two_arg2 (v : Word) : (s.setArg 2 v).arg2 = v := rfl
@[simp] theorem State.setArg_two_arg3 (v : Word) : (s.setArg 2 v).arg3 = s.arg3 := rfl
@[simp] theorem State.setArg_two_res0 (v : Word) : (s.setArg 2 v).res0 = s.res0 := rfl
@[simp] theorem State.setArg_two_res1 (v : Word) : (s.setArg 2 v).res1 = s.res1 := rfl
@[simp] theorem State.setArg_two_res2 (v : Word) : (s.setArg 2 v).res2 = s.res2 := rfl
@[simp] theorem State.setArg_two_res3 (v : Word) : (s.setArg 2 v).res3 = s.res3 := rfl
@[simp] theorem State.setArg_two_status (v : Word) : (s.setArg 2 v).status = s.status := rfl
@[simp] theorem State.setArg_two_cmd (v : Word) : (s.setArg 2 v).cmd = s.cmd := rfl
@[simp] theorem State.setArg_two_mem (v : Word) : (s.setArg 2 v).mem = s.mem := rfl
@[simp] theorem State.setArg_two_unpolled (v : Word) : (s.setArg 2 v).unpolled = s.unpolled := rfl
@[simp] theorem State.setArg_two_cfg (v : Word) : (s.setArg 2 v).cfg = s.cfg := rfl
@[simp] theorem State.setArg_two_resets (v : Word) : (s.setArg 2 v).resets = s.resets := rfl
@[simp] theorem State.setArg_two_agenda (v : Word) : (s.setArg 2 v).agenda = s.agenda := rfl
@[simp] theorem State.setArg_two_seen (v : Word) : (s.setArg 2 v).seen = s.seen := rfl
@[simp] theorem State.setArg_three_arg0 (v : Word) : (s.setArg 3 v).arg0 = s.arg0 := rfl
@[simp] theorem State.setArg_three_arg1 (v : Word) : (s.setArg 3 v).arg1 = s.arg1 := rfl
@[simp] theorem State.setArg_three_arg2 (v : Word) : (s.setArg 3 v).arg2 = s.arg2 := rfl
@[simp] theorem State.setArg_three_arg3 (v : Word) : (s.setArg 3 v).arg3 = v := rfl
@[simp] theorem State.setArg_three_res0 (v : Word) : (s.setArg 3 v).res0 = s.res0 := rfl
@[simp] theorem State.setArg_three_res1 (v : Word) : (s.setArg 3 v).res1 = s.res1 := rfl
@[simp] theorem State.setArg_three_res2 (v : Word) : (s.setArg 3 v).res2 = s.res2 := rfl
@[simp] theorem State.setArg_three_res3 (v : Word) : (s.setArg 3 v).res3 = s.res3 := rfl
@[simp] theorem State.setArg_three_status (v : Word) : (s.setArg 3 v).status = s.status := rfl
@[simp] theorem State.setArg_three_cmd (v : Word) : (s.setArg 3 v).cmd = s.cmd := rfl
@[simp] theorem State.setArg_three_mem (v : Word) : (s.setArg 3 v).mem = s.mem := rfl
@[simp] theorem State.setArg_three_unpolled (v : Word) : (s.setArg 3 v).unpolled = s.unpolled := rfl
@[simp] theorem State.setArg_three_cfg (v : Word) : (s.setArg 3 v).cfg = s.cfg := rfl
@[simp] theorem State.setArg_three_resets (v : Word) : (s.setArg 3 v).resets = s.resets := rfl
@[simp] theorem State.setArg_three_agenda (v : Word) : (s.setArg 3 v).agenda = s.agenda := rfl
@[simp] theorem State.setArg_three_seen (v : Word) : (s.setArg 3 v).seen = s.seen := rfl

/-! ### The buffer writes are writes at block offsets -/

@[simp] theorem State.storeSec_eq (i : Nat) (bs : List Byte) : s.storeSec i bs = s.store (secBase + i) bs := rfl
@[simp] theorem State.storeSubr_eq (bs : List Byte) : s.storeSubr bs = s.store subrBase bs := rfl
@[simp] theorem State.storeSubd_eq (i : Nat) (bs : List Byte) : s.storeSubd i bs = s.store (subdBase + i) bs := rfl

end Sys2Proof.Machine
end

