-- ==== Sys2Proof/Laws/Ops.lean ====
section
/-! SUPPORT. One specification lemma per shared operation: buffer reads and writes, completing and failing a command,
the HOST's accesses, and the invariant through each of them. -/

namespace Sys2Proof.Machine

variable (s : State)

/-! ### Reading buffer bytes -/

/-- A byte depends on the byte store and the number of resets alone. -/
theorem State.byte_congr {s t : State} (hm : t.mem = s.mem) (hr : t.resets = s.resets) (off : Nat) :
    t.byte off = s.byte off := by
  simp [State.byte, hm, hr]

@[simp] theorem State.start_byte (w : Word) (off : Nat) : (s.start w).byte off = s.byte off := rfl
@[simp] theorem State.finish_byte (r0 r1 r2 r3 : Word) (off : Nat) :
    (s.finish r0 r1 r2 r3).byte off = s.byte off := rfl
@[simp] theorem State.raise_byte (k : ErrorKind) (off : Nat) : (s.raise k).byte off = s.byte off := rfl
@[simp] theorem State.noteRead_byte (v : Word) (off : Nat) : (s.noteRead v).byte off = s.byte off := rfl
@[simp] theorem State.poll_byte (off : Nat) : s.poll.byte off = s.byte off := rfl

theorem State.bytes_eq_map (off n : Nat) : s.bytes off n = (List.range n).map fun i => s.byte (off + i) :=
  Memory.readRun_eq_map _ _ _ _

@[simp] theorem State.bytes_length (off n : Nat) : (s.bytes off n).length = n := by simp [State.bytes_eq_map]

theorem State.secRun_eq_map (i n : Nat) : s.secRun i n = (List.range n).map fun k => s.sec (i + k) := by
  simp [State.secRun, State.sec, State.bytes_eq_map, Nat.add_assoc]

theorem State.subdRun_eq_map (i n : Nat) : s.subdRun i n = (List.range n).map fun k => s.subd (i + k) := by
  simp [State.subdRun, State.subd, State.bytes_eq_map, Nat.add_assoc]

theorem State.subrAll_eq_map : s.subrAll = (List.range 96).map fun k => s.subr k := by
  simp [State.subrAll, State.subr, State.bytes_eq_map, subBytes]

@[simp] theorem State.secRun_length (i n : Nat) : (s.secRun i n).length = n := by simp [State.secRun]

@[simp] theorem State.subdRun_length (i n : Nat) : (s.subdRun i n).length = n := by simp [State.subdRun]

theorem State.bytes_getD (off n j : Nat) (h : j < n) : (s.bytes off n).getD j 0#8 = s.byte (off + j) := by
  simp [State.bytes_eq_map, h]

/-- Two states with equal bytes in a range read equal runs of it. -/
theorem State.bytes_congr {s t : State} {off n : Nat} (h : ∀ i < n, s.byte (off + i) = t.byte (off + i)) :
    s.bytes off n = t.bytes off n := by
  rw [State.bytes_eq_map, State.bytes_eq_map]
  exact List.map_congr_left fun i hi => h i (List.mem_range.mp hi)

/-- R61: the offsets of the three buffers, in numbers. -/
theorem inBuffer_iff (off : Nat) :
    inBuffer off = true ↔
      (0x1000 ≤ off ∧ off < 0x1930) ∨ (0x2000 ≤ off ∧ off < 0x2060) ∨ (0x2080 ≤ off ∧ off < 0x20E0) := by
  unfold inBuffer
  simp only [Bool.or_eq_true, Bool.and_eq_true, decide_eq_true_eq]
  simp only [secBase, subrBase, subdBase, sectorBytes, subBytes]
  omega

/-! ### Writing buffer bytes -/

/-- Everything a store does to later reads. -/
theorem State.store_byte (off : Nat) (bs : List Byte) (k : Nat) :
    (s.store off bs).byte k = if off ≤ k ∧ k < off + bs.length then bs.getD (k - off) 0#8 else s.byte k := by
  simp only [State.byte, State.store_mem, State.store_resets, Memory.get?_splice]
  split
  · rename_i h
    simp [show k - off < bs.length by omega]
  · rfl

theorem State.store_byte_of_outside {off k : Nat} {bs : List Byte} (h : k < off ∨ off + bs.length ≤ k) :
    (s.store off bs).byte k = s.byte k := by
  rw [State.store_byte, if_neg (by omega)]

/-- A run outside the stored bytes reads as before. -/
theorem State.store_bytes_of_disjoint {off k n : Nat} {bs : List Byte} (h : k + n ≤ off ∨ off + bs.length ≤ k) :
    (s.store off bs).bytes k n = s.bytes k n :=
  State.bytes_congr fun i hi => State.store_byte_of_outside s (by omega)

/-- The stored run reads back. -/
theorem State.store_bytes_self (off : Nat) (bs : List Byte) : (s.store off bs).bytes off bs.length = bs := by
  apply List.ext_getElem (by simp)
  intro i h1 h2
  simp [State.bytes_eq_map, State.store_byte, h2]

theorem leWord_leBytes (w : Word) :
    leWord ((leBytes w).getD 0 0#8) ((leBytes w).getD 1 0#8) ((leBytes w).getD 2 0#8) ((leBytes w).getD 3 0#8) = w := by
  apply BitVec.eq_of_getLsbD_eq
  intro i hi
  simp only [leBytes, leWord, List.getD_cons_zero, List.getD_cons_succ, BitVec.getLsbD_append, BitVec.getLsbD_extractLsb']
  split_ifs with h0 h1 h2
  · simp [h0]
  · simp [h1, show 8 + (i - 8) = i by omega]
  · simp [h2, show 16 + (i - 8 - 8) = i by omega]
  · simp [show i - 8 - 8 - 8 < 8 by omega, show 24 + (i - 8 - 8 - 8) = i by omega]

/-! ### Completing, failing and starting a command -/

@[simp] theorem State.finish_busy (r0 r1 r2 r3 : Word) : (s.finish r0 r1 r2 r3).busy = false := by simp [State.busy]
@[simp] theorem State.finish_done (r0 r1 r2 r3 : Word) : (s.finish r0 r1 r2 r3).done = true := by simp [State.done]
@[simp] theorem State.finish_err (r0 r1 r2 r3 : Word) : (s.finish r0 r1 r2 r3).err = 0#4 := by simp [State.err]
@[simp] theorem State.start_busy (w : Word) : (s.start w).busy = true := by simp [State.busy]
@[simp] theorem State.raise_busy (k : ErrorKind) : (s.raise k).busy = false := by
  cases k <;> simp [State.busy, statusWord, errorCode]
@[simp] theorem State.raise_done (k : ErrorKind) : (s.raise k).done = true := by
  cases k <;> simp [State.done, statusWord, errorCode]
@[simp] theorem State.raise_err (k : ErrorKind) : (s.raise k).err = errorCode k := by
  cases k <;> simp [State.err, statusWord, errorCode]

/-! ### The invariant through the shared operations -/

theorem State.inv_iff :
    s.inv = true ↔ s.mem.wf = true ∧ (∀ c ∈ s.mem, inBuffer c.1 = true) ∧ statusLegal s = true ∧
      (s.cmd.isNone || s.unpolled) = true := by
  simp [State.inv, and_assoc]

theorem State.inv_finish (h : s.inv = true) (r0 r1 r2 r3 : Word) : (s.finish r0 r1 r2 r3).inv = true := by
  rw [State.inv_iff] at h ⊢
  exact ⟨h.1, h.2.1, rfl, rfl⟩

theorem State.inv_raise (h : s.inv = true) (k : ErrorKind) : (s.raise k).inv = true := by
  rw [State.inv_iff] at h ⊢
  exact ⟨h.1, h.2.1, by cases k <;> rfl, rfl⟩

theorem State.inv_start (h : s.inv = true) (w : Word) : (s.start w).inv = true := by
  rw [State.inv_iff] at h ⊢
  exact ⟨h.1, h.2.1, rfl, rfl⟩

theorem State.inv_platformReset : s.platformReset.inv = true := rfl

theorem State.inv_noteRead (h : s.inv = true) (v : Word) : (s.noteRead v).inv = true := h

/-- A read of `STATUS` keeps the invariant: while a command is pending it returns `BUSY = 1`. -/
theorem State.inv_poll (h : s.inv = true) : s.poll.inv = true := by
  rw [State.inv_iff] at h ⊢
  refine ⟨h.1, h.2.1, h.2.2.1, ?_⟩
  have hl := h.2.2.1
  have hu := h.2.2.2
  cases hc : s.cmd with
  | none => simp [hc]
  | some w =>
    have hs : s.status = 0x01#32 := by simpa [statusLegal, hc] using hl
    have hu : s.unpolled = true := by simpa [hc] using hu
    simp [hu, State.busy, hs]

theorem State.inv_readReg (h : s.inv = true) (r : Reg) : (s.readReg r).inv = true := by
  cases r
  case status => exact State.inv_poll _ (State.inv_noteRead s h _)
  all_goals exact State.inv_noteRead s h _

/-- A store whose bytes all lie in a buffer keeps the invariant. -/
theorem State.inv_store (h : s.inv = true) {off : Nat} {bs : List Byte}
    (hb : ∀ k, off ≤ k → k < off + bs.length → inBuffer k = true) : (s.store off bs).inv = true := by
  rw [State.inv_iff] at h ⊢
  refine ⟨Memory.wf_splice h.1 _ _, fun c hc => ?_, h.2.2⟩
  rcases Memory.mem_splice hc with hc | hc
  · exact h.2.1 c hc
  · exact hb _ hc.1 hc.2

/-! ### The HOST's accesses -/

/-- R323: the HOST need not wait exactly when the block is idle and its last command has been polled. -/
theorem State.held_eq_false : s.held = false ↔ s.busy = false ∧ s.unpolled = false := by simp [State.held]

/-- A register read by a HOST that need not wait records the value and nothing else. -/
theorem State.readReg_of_not_held (h : s.held = false) (r : Reg) : s.readReg r = s.noteRead (s.regValue r) := by
  obtain ⟨hb, hu⟩ := (State.held_eq_false s).mp h
  cases r <;> simp [State.readReg, State.poll, State.noteRead, State.regValue, hu]

/-- Everything a HOST access can do when it is answered: read a register, write a register, read a buffer byte, write
a buffer byte. -/
theorem hostAccess_next {a : Access} {s t : State} (h : hostAccess a s = .next t) :
    (∃ addr r, a = .read .word addr ∧ regAt (addr - s.cfg.base) = some r ∧
      (s.held = false ∨ addr = s.cfg.base + 0x04) ∧ t = s.readReg r) ∨
    (∃ addr r v, a = .write .word addr v ∧ regAt (addr - s.cfg.base) = some r ∧ s.held = false ∧ t = s.writeReg r v) ∨
    (∃ addr, a = .read .byte addr ∧ inBuffer (addr - s.cfg.base) = true ∧ s.held = false ∧
      t = s.noteRead (0#24 ++ s.byte (addr - s.cfg.base))) ∨
    (∃ addr v, a = .write .byte addr v ∧ inBuffer (addr - s.cfg.base) = true ∧ s.held = false ∧
      t = s.store (addr - s.cfg.base) [v.extractLsb' 0 8]) := by
  unfold hostAccess windowAccess at h
  split at h
  · cases h
  · split at h
    · cases h
    · rename_i hb
      split at h
      · split at h
        · rename_i r hr
          cases a with
          | read w addr =>
            cases w <;> simp only [regAccess, reduceCtorEq, Host.Outcome.next.injEq] at h
            refine .inl ⟨addr, r, rfl, hr, ?_, h.symm⟩
            by_cases ha : addr = s.cfg.base + 0x04
            · exact .inr ha
            · exact .inl (by simpa [isStatusPoll, ha] using hb)
          | write w addr v =>
            cases w <;> simp only [regAccess, reduceCtorEq, Host.Outcome.next.injEq] at h
            exact .inr (.inl ⟨addr, r, v, rfl, hr, by simpa [isStatusPoll] using hb, h.symm⟩)
        · cases h
      · split at h
        · rename_i hin
          cases a with
          | read w addr =>
            cases w <;> simp only [bufferAccess, reduceCtorEq, Host.Outcome.next.injEq] at h
            exact .inr (.inr (.inl ⟨addr, rfl, hin, by simpa [isStatusPoll] using hb, h.symm⟩))
          | write w addr v =>
            cases w <;> simp only [bufferAccess, reduceCtorEq, Host.Outcome.next.injEq] at h
            exact .inr (.inr (.inr ⟨addr, v, rfl, hin, by simpa [isStatusPoll] using hb, h.symm⟩))
        · cases h

end Sys2Proof.Machine
end

