-- ==== Sys2Proof/Laws/Units.lean ====
section
/-! SUPPORT. The small laws of the units' functions: lengths, table entries, one step at a time. -/

namespace Sys2Proof.Machine

/-! ### Lengths -/

@[simp] theorem leBytes_length (w : Word) : (leBytes w).length = 4 := rfl

@[simp] theorem eccVisits_length (p : EccParams) (idx n : Nat) : (eccVisits p idx n).length = n := by
  induction n generalizing idx with
  | zero => rfl
  | succ n ih => simp [eccVisits, ih]

@[simp] theorem eccRow_length (l : List Byte) (p : EccParams) (m : Nat) : (eccRow l p m).length = p.minorCount := by
  simp [eccRow]

@[simp] theorem eccField_length (l : List Byte) (p : EccParams) : (eccField l p).length = 2 * p.majorCount := by
  simp [eccField, Nat.two_mul]

@[simp] theorem pField_length (mode : TrackMode) (s : State) : (pField mode s).length = 172 := by
  simp [pField, pParams]

@[simp] theorem qField_length (mode : TrackMode) (s : State) : (qField mode s).length = 104 := by
  simp [qField, qParams]

@[simp] theorem deint_length (raw : List Byte) : (deint raw).length = 96 := by simp [deint]

@[simp] theorem inter_length (flat : List Byte) : (inter flat).length = 96 := by simp [inter]

@[simp] theorem bcdTime_length (t : Time) : (bcdTime t).length = 3 := rfl

@[simp] theorem qPrefix_length (n rel : Nat) (control : BitVec 4) (track index : Nat) :
    (qPrefix n rel control track index).length = 10 := rfl

@[simp] theorem qRecord_length (v : Crc16Variant) (n rel : Nat) (control : BitVec 4) (track index : Nat) :
    (qRecord v n rel control track index).length = 12 := rfl

@[simp] theorem syncPattern_length : syncPattern.length = 12 := rfl

/-! ### Bits of an interleaved byte -/

/-- Bit `7 - k` of `byteOfBits f` is `f k`. -/
theorem byteOfBits_getLsbD (f : Nat → Bool) {k : Nat} (hk : k < 8) : (byteOfBits f).getLsbD (7 - k) = f k := by
  have h : ∀ b0 b1 b2 b3 b4 b5 b6 b7 : Bool, ∀ j : Fin 8,
      (BitVec.ofBool b0 ++ BitVec.ofBool b1 ++ BitVec.ofBool b2 ++ BitVec.ofBool b3 ++ BitVec.ofBool b4 ++
        BitVec.ofBool b5 ++ BitVec.ofBool b6 ++ BitVec.ofBool b7 : BitVec 8).getLsbD (7 - j.val) =
      [b0, b1, b2, b3, b4, b5, b6, b7].getD j.val false := by decide
  have := h (f 0) (f 1) (f 2) (f 3) (f 4) (f 5) (f 6) (f 7) ⟨k, hk⟩
  interval_cases k <;> exact this

theorem deint_getD (raw : List Byte) {n : Nat} (hn : n < 96) :
    (deint raw).getD n 0#8 = byteOfBits fun k => (raw.getD (8 * (n % 12) + k) 0#8).getLsbD (7 - n / 12) := by
  simp [deint, hn]

theorem inter_getD (flat : List Byte) {n : Nat} (hn : n < 96) :
    (inter flat).getD n 0#8 = byteOfBits fun c => (flat.getD (12 * c + n / 8) 0#8).getLsbD (7 - n % 8) := by
  simp [inter, hn]

/-! ### Parity -/

/-- The first bytes of the pairs fill the first half of a parity field (R158). -/
theorem eccField_getD_first (l : List Byte) (p : EccParams) {m : Nat} (hm : m < p.majorCount) :
    (eccField l p).getD m 0#8 = (eccPair l p m).1 := by
  simp [eccField, List.getElem?_append, hm]

/-- The second bytes of the pairs fill the second half of a parity field (R158). -/
theorem eccField_getD_second (l : List Byte) (p : EccParams) {m : Nat} (hm : m < p.majorCount) :
    (eccField l p).getD (m + p.majorCount) 0#8 = (eccPair l p m).2 := by
  simp [eccField, hm]

end Sys2Proof.Machine
end

