-- ==== Sys2Proof/Laws/Commands.lean ====
section
/-! SUPPORT. Everything a command can do, said once: it raises an error, or it completes with four results after
writing the byte store and nothing else. -/

namespace Sys2Proof.Machine

/-- The outcome of a command run from `s`: an error raised in `s`, or a completion from `s` with another byte store. -/
def IsCommandOutcome (s : State) (o : Host.Outcome State Fault Refusal) : Prop :=
  (∃ k, o = .next (s.raise k)) ∨
  ∃ m r0 r1 r2 r3, o = .next (({ s with mem := m } : State).finish r0 r1 r2 r3)

variable (s : State)

theorem IsCommandOutcome.raise (k : ErrorKind) : IsCommandOutcome s (.next (s.raise k)) := .inl ⟨k, rfl⟩

theorem IsCommandOutcome.finish (r0 r1 r2 r3 : Word) : IsCommandOutcome s (.next (s.finish r0 r1 r2 r3)) :=
  .inr ⟨s.mem, r0, r1, r2, r3, rfl⟩

theorem IsCommandOutcome.store (off : Nat) (bs : List Byte) (r0 r1 r2 r3 : Word) :
    IsCommandOutcome s (.next ((s.store off bs).finish r0 r1 r2 r3)) := .inr ⟨_, r0, r1, r2, r3, rfl⟩

theorem IsCommandOutcome.ite {c : Prop} [Decidable c] {o o' : Host.Outcome State Fault Refusal}
    (h : IsCommandOutcome s o) (h' : IsCommandOutcome s o') : IsCommandOutcome s (if c then o else o') := by
  split <;> assumption

/-! ### SEC.BUILD changes the byte store alone -/

theorem buildSubHeader_mem (mode : TrackMode) : ∃ m, buildSubHeader mode s = { s with mem := m } := by
  cases mode
  case cdMode2Form1 | cdMode2Form2 =>
    simp only [buildSubHeader, duplicateSubHeader]
    split <;> exact ⟨_, rfl⟩
  all_goals exact ⟨s.mem, rfl⟩

theorem buildEdc_mem (mode : TrackMode) : ∃ m, buildEdc mode s = { s with mem := m } := by
  unfold buildEdc
  split
  · exact ⟨s.mem, rfl⟩
  · dsimp only
    split <;> exact ⟨_, rfl⟩

theorem buildEcc_mem (mode : TrackMode) : ∃ m, buildEcc mode s = { s with mem := m } := by
  unfold buildEcc
  split <;> exact ⟨_, rfl⟩

theorem buildSector_mem (mode : TrackMode) (n : Nat) : ∃ m, buildSector mode n s = { s with mem := m } := by
  obtain ⟨m2, h2⟩ := buildSubHeader_mem (buildPrefix mode n s) mode
  obtain ⟨m3, h3⟩ := buildEdc_mem (buildSubHeader mode (buildPrefix mode n s)) mode
  obtain ⟨m4, h4⟩ := buildEcc_mem (buildEdc mode (buildSubHeader mode (buildPrefix mode n s))) mode
  exact ⟨m4, by rw [buildSector, h4, h3, h2]; rfl⟩

/-! ### Every command -/

/-- The outcome of every command, from every state. -/
theorem exec_outcome (i : Instr) : IsCommandOutcome s (exec i s) := by
  cases i with
  | nop => exact .finish s _ _ _ _
  | crc16 => rw [exec, execCrc16]; split; exacts [.raise s _, .finish s _ _ _ _]
  | edc => rw [exec, execEdc]; split; exacts [.raise s _, .finish s _ _ _ _]
  | edcGen mode => rw [exec, execEdcGen]; split; exacts [.raise s _, .store s _ _ _ _ _ _]
  | edcChk mode => rw [exec, execEdcChk]; split; exacts [.raise s _, .finish s _ _ _ _]
  | eccpGen mode => rw [exec, execEccpGen]; split; exacts [.store s _ _ _ _ _ _, .raise s _]
  | eccqGen mode => rw [exec, execEccqGen]; split; exacts [.store s _ _ _ _ _ _, .raise s _]
  | eccpChk mode => rw [exec, execEccpChk]; split; exacts [.finish s _ _ _ _, .raise s _]
  | eccqChk mode => rw [exec, execEccqChk]; split; exacts [.finish s _ _ _ _, .raise s _]
  | subDeint => exact .store s _ _ _ _ _ _
  | subInt => exact .store s _ _ _ _ _ _
  | qParse bcd => exact .finish s _ _ _ _
  | qBuild => rw [exec, execQBuild]; dsimp only; split; exacts [.store s _ _ _ _ _ _, .raise s _]
  | subGen => rw [exec, execSubGen]; exact .ite s (.inr ⟨_, _, _, _, _, rfl⟩) (.raise s _)
  | bcd2bin => exact .finish s _ _ _ _
  | bin2bcd => rw [exec, execBin2bcd]; split; all_goals first | exact .raise s _ | exact .finish s _ _ _ _
  | lba2msf => rw [exec, execLba2msf]; dsimp only; split; all_goals first | exact .raise s _ | exact .finish s _ _ _ _
  | msf2lba => exact .finish s _ _ _ _
  | secCheck => rw [exec, execSecCheck]; split; exacts [.raise s _, .finish s _ _ _ _]
  | secBuild mode =>
    rw [exec, execSecBuild]
    split
    · exact .raise s _
    · split
      · obtain ⟨m, h⟩ := buildSector_mem s mode (framesOf (s.argS 0)).toNat
        rw [h]
        exact .inr ⟨m, _, _, _, _, rfl⟩
      · exact .raise s _
  | layout mode tag => rw [exec, execLayout]; split; all_goals first | exact .raise s _ | exact .finish s _ _ _ _

end Sys2Proof.Machine
end

