-- ==== Sys2Proof/Laws/Flags.lean ====
section
/-! SUPPORT. The fields of the packed words: every slice of a flag word is the flag it was packed from. -/

namespace Sys2Proof.Machine

/-! ### STATUS (R26) -/

theorem statusWord_busy (err : BitVec 4) (done busy : Bool) : (statusWord err done busy).getLsbD 0 = busy := by
  simp only [statusWord, BitVec.getLsbD_append]
  simp

theorem statusWord_done (err : BitVec 4) (done busy : Bool) : (statusWord err done busy).getLsbD 1 = done := by
  simp only [statusWord, BitVec.getLsbD_append]
  simp

theorem statusWord_err (err : BitVec 4) (done busy : Bool) :
    (statusWord err done busy).extractLsb' 4 4 = err := by
  apply BitVec.eq_of_getLsbD_eq
  intro i hi
  simp only [statusWord, BitVec.getLsbD_extractLsb', BitVec.getLsbD_append]
  interval_cases i <;> simp

/-! ### RES0 of Q.PARSE (R191) -/

section
variable (crcCalc : Half) (converted crcOk adrKnown : Bool) (area : BitVec 2) (control adr : BitVec 4)

theorem qFlags_adr : (qFlags crcCalc converted crcOk adrKnown area control adr).extractLsb' 0 4 = adr := by
  apply BitVec.eq_of_getLsbD_eq
  intro i hi
  simp only [qFlags, BitVec.getLsbD_extractLsb', BitVec.getLsbD_append]
  interval_cases i <;> simp

theorem qFlags_control : (qFlags crcCalc converted crcOk adrKnown area control adr).extractLsb' 4 4 = control := by
  apply BitVec.eq_of_getLsbD_eq
  intro i hi
  simp only [qFlags, BitVec.getLsbD_extractLsb', BitVec.getLsbD_append]
  interval_cases i <;> simp

theorem qFlags_area : (qFlags crcCalc converted crcOk adrKnown area control adr).extractLsb' 8 2 = area := by
  apply BitVec.eq_of_getLsbD_eq
  intro i hi
  simp only [qFlags, BitVec.getLsbD_extractLsb', BitVec.getLsbD_append]
  interval_cases i <;> simp

theorem qFlags_adrKnown : (qFlags crcCalc converted crcOk adrKnown area control adr).getLsbD 10 = adrKnown := by
  simp only [qFlags, BitVec.getLsbD_append]
  simp

theorem qFlags_crcOk : (qFlags crcCalc converted crcOk adrKnown area control adr).getLsbD 11 = crcOk := by
  simp only [qFlags, BitVec.getLsbD_append]
  simp

theorem qFlags_converted : (qFlags crcCalc converted crcOk adrKnown area control adr).getLsbD 12 = converted := by
  simp only [qFlags, BitVec.getLsbD_append]
  simp

theorem qFlags_reserved : (qFlags crcCalc converted crcOk adrKnown area control adr).extractLsb' 13 3 = 0#3 := by
  apply BitVec.eq_of_getLsbD_eq
  intro i hi
  simp only [qFlags, BitVec.getLsbD_extractLsb', BitVec.getLsbD_append]
  interval_cases i <;> simp

theorem qFlags_crcCalc : (qFlags crcCalc converted crcOk adrKnown area control adr).extractLsb' 16 16 = crcCalc := by
  apply BitVec.eq_of_getLsbD_eq
  intro i hi
  simp only [qFlags, BitVec.getLsbD_extractLsb', BitVec.getLsbD_append]
  interval_cases i <;> simp

end

/-! ### RES0 of SEC.CHECK (R249) -/

section
variable (cls : BitVec 3) (edc eccQ eccP overall : Option Bool)

theorem sectorFlags_overall : (sectorFlags cls edc eccQ eccP overall).extractLsb' 0 2 = optBits overall := by
  apply BitVec.eq_of_getLsbD_eq
  intro i hi
  simp only [sectorFlags, BitVec.getLsbD_extractLsb', BitVec.getLsbD_append]
  interval_cases i <;> simp

theorem sectorFlags_eccP : (sectorFlags cls edc eccQ eccP overall).extractLsb' 2 2 = optBits eccP := by
  apply BitVec.eq_of_getLsbD_eq
  intro i hi
  simp only [sectorFlags, BitVec.getLsbD_extractLsb', BitVec.getLsbD_append]
  interval_cases i <;> simp

theorem sectorFlags_eccQ : (sectorFlags cls edc eccQ eccP overall).extractLsb' 4 2 = optBits eccQ := by
  apply BitVec.eq_of_getLsbD_eq
  intro i hi
  simp only [sectorFlags, BitVec.getLsbD_extractLsb', BitVec.getLsbD_append]
  interval_cases i <;> simp

theorem sectorFlags_edc : (sectorFlags cls edc eccQ eccP overall).extractLsb' 6 2 = optBits edc := by
  apply BitVec.eq_of_getLsbD_eq
  intro i hi
  simp only [sectorFlags, BitVec.getLsbD_extractLsb', BitVec.getLsbD_append]
  interval_cases i <;> simp

theorem sectorFlags_class : (sectorFlags cls edc eccQ eccP overall).extractLsb' 8 3 = cls := by
  apply BitVec.eq_of_getLsbD_eq
  intro i hi
  simp only [sectorFlags, BitVec.getLsbD_extractLsb', BitVec.getLsbD_append]
  interval_cases i <;> simp

end

/-! ### Three packed bytes (R191) -/

section
variable (b2 b1 b0 : Byte)

theorem packBytes_low : (packBytes b2 b1 b0).extractLsb' 0 8 = b0 := by
  apply BitVec.eq_of_getLsbD_eq
  intro i hi
  simp only [packBytes, BitVec.getLsbD_extractLsb', BitVec.getLsbD_append]
  interval_cases i <;> simp

theorem packBytes_middle : (packBytes b2 b1 b0).extractLsb' 8 8 = b1 := by
  apply BitVec.eq_of_getLsbD_eq
  intro i hi
  simp only [packBytes, BitVec.getLsbD_extractLsb', BitVec.getLsbD_append]
  interval_cases i <;> simp

theorem packBytes_high : (packBytes b2 b1 b0).extractLsb' 16 8 = b2 := by
  apply BitVec.eq_of_getLsbD_eq
  intro i hi
  simp only [packBytes, BitVec.getLsbD_extractLsb', BitVec.getLsbD_append]
  interval_cases i <;> simp

end

end Sys2Proof.Machine
end

