-- ==== Sys2Proof/Laws/PerInstr.lean ====
section
/-! SUPPORT. Families of statements about every instruction as syntax, one lemma per constructor. -/

namespace Sys2Proof.Laws

/-- The encoded word passes the five tests of R97 and, under its format's mask, is its opcode alone (R92, R96). -/
def EncodingFields.Statement (i : Instr) : Prop :=
  illegality (encode i) = none ∧ encode i &&& (formatOf i).mask = 0#24 ++ opcode i

theorem EncodingFields.nop : EncodingFields.Statement .nop := by
  exact ⟨by decide, by decide⟩

theorem EncodingFields.crc16 : EncodingFields.Statement .crc16 := by
  exact ⟨by decide, by decide⟩

theorem EncodingFields.edc : EncodingFields.Statement .edc := by
  exact ⟨by decide, by decide⟩

theorem EncodingFields.edcGen (mode : TrackMode) : EncodingFields.Statement (.edcGen mode) := by
  cases mode <;> exact ⟨by decide, by decide⟩

theorem EncodingFields.edcChk (mode : TrackMode) : EncodingFields.Statement (.edcChk mode) := by
  cases mode <;> exact ⟨by decide, by decide⟩

theorem EncodingFields.eccpGen (mode : TrackMode) : EncodingFields.Statement (.eccpGen mode) := by
  cases mode <;> exact ⟨by decide, by decide⟩

theorem EncodingFields.eccqGen (mode : TrackMode) : EncodingFields.Statement (.eccqGen mode) := by
  cases mode <;> exact ⟨by decide, by decide⟩

theorem EncodingFields.eccpChk (mode : TrackMode) : EncodingFields.Statement (.eccpChk mode) := by
  cases mode <;> exact ⟨by decide, by decide⟩

theorem EncodingFields.eccqChk (mode : TrackMode) : EncodingFields.Statement (.eccqChk mode) := by
  cases mode <;> exact ⟨by decide, by decide⟩

theorem EncodingFields.subDeint : EncodingFields.Statement .subDeint := by
  exact ⟨by decide, by decide⟩

theorem EncodingFields.subInt : EncodingFields.Statement .subInt := by
  exact ⟨by decide, by decide⟩

theorem EncodingFields.qParse (bcd : Bool) : EncodingFields.Statement (.qParse bcd) := by
  cases bcd <;> exact ⟨by decide, by decide⟩

theorem EncodingFields.qBuild : EncodingFields.Statement .qBuild := by
  exact ⟨by decide, by decide⟩

theorem EncodingFields.subGen : EncodingFields.Statement .subGen := by
  exact ⟨by decide, by decide⟩

theorem EncodingFields.bcd2bin : EncodingFields.Statement .bcd2bin := by
  exact ⟨by decide, by decide⟩

theorem EncodingFields.bin2bcd : EncodingFields.Statement .bin2bcd := by
  exact ⟨by decide, by decide⟩

theorem EncodingFields.lba2msf : EncodingFields.Statement .lba2msf := by
  exact ⟨by decide, by decide⟩

theorem EncodingFields.msf2lba : EncodingFields.Statement .msf2lba := by
  exact ⟨by decide, by decide⟩

theorem EncodingFields.secCheck : EncodingFields.Statement .secCheck := by
  exact ⟨by decide, by decide⟩

theorem EncodingFields.secBuild (mode : TrackMode) : EncodingFields.Statement (.secBuild mode) := by
  cases mode <;> exact ⟨by decide, by decide⟩

theorem EncodingFields.layout (mode : TrackMode) (tag : FieldTag) :
    EncodingFields.Statement (.layout mode tag) := by
  cases mode <;> cases tag <;> exact ⟨by decide, by decide⟩

end Sys2Proof.Laws
end

