-- ==== Sys2Proof/Tests/Slice0.lean ====
section
/-! SUPPORT. Tests: illegal words, decoding, one step on small states with the spec's own vectors
(`95_test_vectors.md`, `96_test_vectors_more.md`; the vector's id is in the comment), and a witness for the
hypotheses of every statement that has some. -/

-- One proof at a time: each `decide` runs in the kernel, and many at once would each take a thread's stack.
set_option Elab.async false

namespace Sys2Proof.Tests

open Sys2Proof.Machine

/-! ### Helpers -/

/-- The reset state with these operands. -/
def withArgs (a0 a1 a2 a3 : Word) : State :=
  { State.reset with arg0 := a0, arg1 := a1, arg2 := a2, arg3 := a3 }

/-- Does the outcome leave these `STATUS` and `RES` values? -/
def leaves (o : Host.Outcome State Fault Refusal) (status r0 r1 r2 r3 : Word) : Bool :=
  match o with
  | .next t => t.status == status && t.res0 == r0 && t.res1 == r1 && t.res2 == r2 && t.res3 == r3
  | _ => false

/-- Does the outcome leave these bytes at this offset? -/
def leavesBytes (o : Host.Outcome State Fault Refusal) (off : Nat) (bs : List Byte) : Bool :=
  match o with
  | .next t => t.bytes off bs.length == bs
  | _ => false

/-- Does the outcome leave this value as the HOST's newest read? -/
def reads (o : Host.Outcome State Fault Refusal) (v : Word) : Bool :=
  match o with
  | .next t => t.seen == [v]
  | _ => false

/-- The Q frame of 00:02:00, V-CRC-7. -/
def qFrame : List Byte := [0x41#8, 0x01#8, 0x01#8, 0#8, 0#8, 0#8, 0#8, 0#8, 0x02#8, 0#8, 0x28#8, 0x32#8]

/-- The Q frame of V-Q-11. -/
def qFrame2 : List Byte :=
  [0x01#8, 0x02#8, 0x01#8, 0x00#8, 0x13#8, 0x25#8, 0x00#8, 0x03#8, 0x35#8, 0x50#8, 0x17#8, 0x4C#8]

/-- A sector of zeros. -/
def zeroSector (s : State) : State := s.storeSec 0 (List.replicate 2352 0#8)

/-- A sector of zeros but for the sync, a time, this mode byte, and these bytes after the header. -/
def syncedSector (mode : Byte) (rest : List Byte) (s : State) : State :=
  (zeroSector s).storeSec 0 (syncPattern ++ [0x00#8, 0x02#8, 0x00#8, mode] ++ rest)

/-! ### WellFormed: one ill-formed word for each of the five tests of R97, and the legal words beside them -/

theorem test_zero_field_refused : illegality 0x00010000#32 = some .zeroFieldSet := by decide
theorem test_reserved_opcode_refused : illegality 0x00000005#32 = some .reservedOpcode := by decide
theorem test_unused_field_f0_refused : illegality 0x00000100#32 = some .unusedFieldSet := by decide
theorem test_unused_field_fm_refused : illegality 0x00000903#32 = some .unusedFieldSet := by decide
theorem test_unused_field_fmt_refused : illegality 0x00008028#32 = some .unusedFieldSet := by decide
theorem test_unused_field_fb_refused : illegality 0x00000112#32 = some .unusedFieldSet := by decide
theorem test_reserved_mode_refused : illegality 0x00000503#32 = some .reservedMode := by decide
theorem test_reserved_tag_refused : illegality 0x00004928#32 = some .reservedTag := by decide
theorem test_largest_mode_and_tag_legal : illegality 0x00004428#32 = none := by decide
theorem test_tests_in_order : illegality 0x00010005#32 = some .zeroFieldSet ∧
    illegality 0x00008705#32 = some .reservedOpcode ∧ illegality 0x00008F28#32 = some .unusedFieldSet ∧
    illegality 0x00007F28#32 = some .reservedMode := by decide

/-- R96: no two rows of the opcode map have the same opcode. -/
theorem test_opcodes_distinct : (opcodeMap.map Prod.fst).Nodup := by decide

/-! ### Decode: every constructor from a word written out from R96 and R91 -/

theorem test_decode_nop : decode 0x00000000#32 = .ok .nop := by decide
theorem test_decode_crc16 : decode 0x00000001#32 = .ok .crc16 := by decide
theorem test_decode_edc : decode 0x00000002#32 = .ok .edc := by decide
theorem test_decode_edc_gen : decode 0x00000103#32 = .ok (.edcGen .cdMode1) := by decide
theorem test_decode_edc_chk : decode 0x00000404#32 = .ok (.edcChk .cdMode2Form2) := by decide
theorem test_decode_eccp_gen : decode 0x00000308#32 = .ok (.eccpGen .cdMode2Form1) := by decide
theorem test_decode_eccq_gen : decode 0x00000209#32 = .ok (.eccqGen .cdMode2Formless) := by decide
theorem test_decode_eccp_chk : decode 0x0000000A#32 = .ok (.eccpChk .audio) := by decide
theorem test_decode_eccq_chk : decode 0x0000010B#32 = .ok (.eccqChk .cdMode1) := by decide
theorem test_decode_sub_deint : decode 0x00000010#32 = .ok .subDeint := by decide
theorem test_decode_sub_int : decode 0x00000011#32 = .ok .subInt := by decide
theorem test_decode_q_parse : decode 0x00008012#32 = .ok (.qParse true) ∧
    decode 0x00000012#32 = .ok (.qParse false) := by decide
theorem test_decode_q_build : decode 0x00000013#32 = .ok .qBuild := by decide
theorem test_decode_sub_gen : decode 0x00000014#32 = .ok .subGen := by decide
theorem test_decode_bcd2bin : decode 0x00000018#32 = .ok .bcd2bin := by decide
theorem test_decode_bin2bcd : decode 0x00000019#32 = .ok .bin2bcd := by decide
theorem test_decode_lba2msf : decode 0x0000001A#32 = .ok .lba2msf := by decide
theorem test_decode_msf2lba : decode 0x0000001B#32 = .ok .msf2lba := by decide
theorem test_decode_sec_check : decode 0x00000020#32 = .ok .secCheck := by decide
theorem test_decode_sec_build : decode 0x00000421#32 = .ok (.secBuild .cdMode2Form2) := by decide
theorem test_decode_layout : decode 0x00001328#32 = .ok (.layout .cdMode2Form1 .subHeader) ∧
    decode 0x00004028#32 = .ok (.layout .audio .userData) := by decide
theorem test_decode_table_word : decodeTableWord 32 0x1328 = some (.layout .cdMode2Form1 .subHeader) ∧
    decodeTableWord 8 0x21 = some (.secBuild .audio) ∧ decodeTableWord 32 0x5 = none := by decide
theorem test_encode_layout : encode (.layout .cdMode1 .subHeader) = 0x00001128#32 := by decide

/-! ### Tables: spot values of R121, R122, R124, R150, R151 -/

theorem test_crc16_table : crc16T .redbook 1#8 = 0x1021#16 ∧ crc16T .redbook 255#8 = 0x1EF0#16 ∧
    crc16T .kermit 1#8 = 0x1189#16 ∧ crc16T .kermit 255#8 = 0x0F78#16 := by decide +kernel
theorem test_edc_table : edcT 0#8 = 0#32 ∧ edcT 1#8 = 0x90910101#32 ∧ edcT 2#8 = 0x91210201#32 ∧
    edcT 0x80#8 = 0xD8018001#32 ∧ edcT 0xFF#8 = 0x7070FF00#32 := by decide +kernel
theorem test_ecc_f : eccF 0#8 = 0#8 ∧ eccF 1#8 = 2#8 ∧ eccF 0x40#8 = 0x80#8 ∧ eccF 0x80#8 = 0x1D#8 ∧
    eccF 0xFF#8 = 0xE3#8 := by decide +kernel
theorem test_ecc_b : eccB 0#8 = 0#8 ∧ eccB 1#8 = 0xF4#8 ∧ eccB 2#8 = 0xF5#8 ∧ eccB 3#8 = 1#8 ∧
    eccB 0xFF#8 = 0x55#8 := by decide +kernel

/-! ### One step of each command -/

/-- R103: NOP clears what a failed command left. -/
theorem test_nop : leaves (exec .nop { State.reset with res0 := 7#32, res3 := 9#32, status := 0x22#32 })
    0x02#32 0#32 0#32 0#32 0#32 := by decide
/-- V-CRC-10. -/
theorem test_crc16 : leaves (exec .crc16 ((withArgs 12#32 10#32 0#32 0#32).storeSubd 12 qFrame))
    0x02#32 0x2832#32 0#32 0#32 0#32 := by decide +kernel
/-- V-CRC-16. -/
theorem test_crc16_no_wrap : leaves (exec .crc16 (withArgs 0xFFFFFFFF#32 1#32 0#32 0#32))
    0x12#32 0#32 0#32 0#32 0#32 := by decide +kernel
/-- V-EDC-6. -/
theorem test_edc : leaves (exec .edc ((withArgs 0#32 0#32 4#32 0#32).storeSec 0 [1#8, 2#8, 3#8, 4#8]))
    0x02#32 0xD260B723#32 0#32 0#32 0#32 := by decide +kernel
/-- V-EDC-10. -/
theorem test_edc_range : leaves (exec .edc (withArgs 0#32 2000#32 353#32 0#32))
    0x12#32 0#32 0#32 0#32 0#32 := by decide +kernel
/-- V-EDC-18 and V-EDC-20. -/
theorem test_edc_gen_unsupported : leaves (exec (.edcGen .audio) State.reset) 0x22#32 0#32 0#32 0#32 0#32 ∧
    leaves (exec (.edcGen .cdMode2Formless) State.reset) 0x22#32 0#32 0#32 0#32 0#32 := by decide
/-- R131: the stored EDC is read little-endian at `SEC[0x92C]` (the bytes of V-EDC-5) into `RES2`. -/
theorem test_edc_chk_stored : (match exec (.edcChk .cdMode2Form2)
      (State.reset.storeSec 0x92C [0x3F#8, 0x13#8, 0xB0#8, 0xBE#8]) with
    | .next t => t.res2 == 0xBEB0133F#32 | _ => false) = true := by decide +kernel
/-- V-EDC-21. -/
theorem test_edc_chk_unsupported : leaves (exec (.edcChk .cdMode2Formless) State.reset)
    0x22#32 0#32 0#32 0#32 0#32 := by decide
/-- V-ECC-1: P row 3 of a sector whose only nonzero byte in it is the mode byte; `x` first. -/
theorem test_ecc_pair : eccPair [0#8, 2#8, 0#8, 1#8] pParams 3 = (0xF5#8, 0xF4#8) := by decide +kernel
/-- V-ECC-5: Q row 1 of the same sector. -/
theorem test_ecc_pair_q : eccPair [0#8, 2#8, 0#8, 1#8] qParams 1 = (0x41#8, 0x43#8) := by decide +kernel
/-- V-ECC-4 step 11. -/
theorem test_eccp_gen_unsupported : leaves (exec (.eccpGen .cdMode2Form2) State.reset)
    0x22#32 0#32 0#32 0#32 0#32 := by decide
/-- V-ECC-4 step 13. -/
theorem test_eccq_gen_unsupported : leaves (exec (.eccqGen .cdMode2Formless) State.reset)
    0x22#32 0#32 0#32 0#32 0#32 := by decide
/-- R157. -/
theorem test_eccp_chk_unsupported : leaves (exec (.eccpChk .audio) State.reset)
    0x22#32 0#32 0#32 0#32 0#32 := by decide
/-- V-ECC-4 step 12. -/
theorem test_eccq_chk_unsupported : leaves (exec (.eccqChk .audio) State.reset)
    0x22#32 0#32 0#32 0#32 0#32 := by decide
/-- V-INT-5b: bits of three raw bytes gather in one byte of channel Q. -/
theorem test_sub_deint : leavesBytes (exec .subDeint
      (State.reset.storeSubr ([0x40#8, 0x40#8, 0#8, 0#8, 0#8, 0#8, 0x40#8] ++ List.replicate 89 0#8)))
    (0x2080 + 11) [0x00#8, 0xC2#8, 0x00#8] := by decide +kernel
/-- V-INT-5: the last raw byte ends in the last byte of every channel. -/
theorem test_sub_deint_last : leavesBytes (exec .subDeint (State.reset.storeSubr (List.replicate 95 0#8 ++ [0xFF#8])))
    (0x2080 + 10) [0x00#8, 0x01#8, 0x00#8] := by decide +kernel
/-- V-INT-8: channel Q all ones. -/
theorem test_sub_int : leavesBytes (exec .subInt
      (State.reset.storeSubd 0 (List.replicate 12 0#8 ++ List.replicate 12 0xFF#8 ++ List.replicate 72 0#8)))
    0x2000 (List.replicate 96 0x40#8) := by decide +kernel
/-- V-Q-11. -/
theorem test_q_parse : leaves (exec (.qParse true) ((withArgs 16025#32 0#32 0#32 0#32).storeSubd 12 qFrame2))
    0x02#32 0x174C1C01#32 0x00000102#32 0x00190D00#32 0x00322303#32 := by decide +kernel
/-- V-Q-12. -/
theorem test_q_parse_raw : leaves (exec (.qParse false) ((withArgs 16025#32 0#32 0#32 0#32).storeSubd 12 qFrame2))
    0x02#32 0x174C0C01#32 0x00000102#32 0x00251300#32 0x00503503#32 := by decide +kernel
/-- V-Q-2. -/
theorem test_q_build : leavesBytes (exec .qBuild (withArgs 16025#32 1000#32 0x00000201#32 0#32))
    (0x2080 + 12) qFrame2 := by decide +kernel
/-- V-Q-10. -/
theorem test_q_build_no_wrap : leaves (exec .qBuild (withArgs 0x7FFFFFFF#32 0#32 0x00000101#32 0#32))
    0x12#32 0#32 0#32 0#32 0#32 := by decide +kernel
/-- V-GEN-2. -/
theorem test_sub_gen : leaves (exec .subGen (withArgs 149#32 0#32 150#32 0x00040100#32))
    0x02#32 0x0001C892#32 0#32 0#32 0#32 := by decide +kernel
/-- V-GEN-4, the first row of `SUBR`. -/
theorem test_sub_gen_window : leavesBytes (exec .subGen (withArgs 1000#32 0#32 150#32 0x00040101#32)) 0x2000
    [0#8, 0x40#8, 0#8, 0#8, 0#8, 0#8, 0#8, 0x40#8, 0#8, 0#8, 0#8, 0#8, 0#8, 0#8, 0#8, 0x40#8] := by decide +kernel
/-- V-BCD-8. -/
theorem test_bcd2bin : leaves (exec .bcd2bin (withArgs 0xAA#32 0#32 0#32 0#32)) 0x02#32 110#32 0#32 0#32 0#32 := by
  decide +kernel
/-- V-BCD-10. -/
theorem test_bcd2bin_upper_bits : leaves (exec .bcd2bin (withArgs 0xFFFFFF42#32 0#32 0#32 0#32))
    0x02#32 42#32 1#32 0#32 0#32 := by decide +kernel
/-- V-BCD-14. -/
theorem test_bin2bcd : leaves (exec .bin2bcd (withArgs 59#32 0#32 0#32 0#32)) 0x02#32 0x59#32 0#32 0#32 0#32 := by
  decide +kernel
/-- V-BCD-17. -/
theorem test_bin2bcd_all_bits : leaves (exec .bin2bcd (withArgs 0x100#32 0#32 0#32 0#32))
    0x12#32 0#32 0#32 0#32 0#32 := by decide +kernel
/-- V-BCD-25. -/
theorem test_lba2msf : leaves (exec .lba2msf (withArgs 16025#32 0#32 0#32 0#32))
    0x02#32 0x00503503#32 0x00322303#32 0#32 0#32 := by decide +kernel
/-- V-BCD-28. -/
theorem test_lba2msf_below : leaves (exec .lba2msf (withArgs 0xFFFFFF69#32 0#32 0#32 0#32))
    0x12#32 0#32 0#32 0#32 0#32 := by decide +kernel
/-- V-BCD-31. -/
theorem test_msf2lba : leaves (exec .msf2lba (withArgs 0#32 0#32 0#32 0#32))
    0x02#32 0xFFFFFF6A#32 1#32 0#32 0#32 := by decide +kernel
/-- V-BCD-35. -/
theorem test_msf2lba_bad_frame : leaves (exec .msf2lba (withArgs 0x00750000#32 0#32 0#32 0#32))
    0x02#32 0xFFFFFFB5#32 0#32 0#32 0#32 := by decide +kernel
/-- V-SEC-26. -/
theorem test_sec_check_mode0 : leaves (exec .secCheck (syncedSector 0x00#8 [0x80#8] State.reset))
    0x02#32 0x00000102#32 0#32 0#32 0#32 := by decide +kernel
/-- V-SEC-22. -/
theorem test_sec_check_no_sync : leaves (exec .secCheck ((syncedSector 0x00#8 [] State.reset).storeSec 11 [0xFF#8]))
    0x12#32 0#32 0#32 0#32 0#32 := by decide +kernel
/-- V-SEC-12: the largest time. -/
theorem test_sec_build_header : leavesBytes (exec (.secBuild .cdMode1) (withArgs 0x0006DD39#32 0#32 0#32 0#32))
    (0x1000 + 10) [0xFF#8, 0x00#8, 0x99#8, 0x59#8, 0x74#8, 0x01#8] := by decide +kernel
/-- V-SEC-7: which copy of the sub-header is kept. -/
theorem test_sec_build_sub_header : leavesBytes (exec (.secBuild .cdMode2Form2)
      (State.reset.storeSec 16 [1#8, 2#8, 3#8, 4#8, 5#8, 6#8, 7#8, 8#8])) (0x1000 + 15)
    [0x02#8, 5#8, 6#8, 7#8, 8#8, 5#8, 6#8, 7#8, 8#8] := by decide +kernel
/-- The source's example S4. -/
theorem test_layout : leaves (exec (.layout .cdMode2Form1 .subHeader) State.reset)
    0x02#32 16#32 8#32 2328#32 0#32 := by decide +kernel
/-- The source's example S4. -/
theorem test_layout_unsupported : leaves (exec (.layout .cdMode1 .subHeader) State.reset)
    0x22#32 0#32 0#32 0#32 0#32 := by decide +kernel

/-! ### The step and the HOST's accesses -/

/-- R61, R65: a write of `ARG2` through the port. -/
theorem test_write_arg2 : (match step { State.reset with agenda := [wr 0 0x10 0xABCD#32] } with
    | .next t => t.arg2 == 0xABCD#32 && t.agenda == [] | _ => false) = true := by decide
/-- R25: `CMD` reads 0, also after a command. -/
theorem test_cmd_reads_zero : reads (step { State.reset with agenda := [rd 0 0x00] }) 0#32 := by decide
/-- R61: `SUBD[0]` is at 0x2080. -/
theorem test_read_subd : reads (step { State.reset.storeSubd 0 [0x5A#8] with agenda := [rdb 0 0x2080] }) 0x5A#32 := by
  decide +kernel
/-- R34: while busy `STATUS` reads 1. -/
theorem test_busy_status : reads (step { State.reset.start 0#32 with agenda := [pollStatus 0] }) 1#32 := by decide
/-- R323: while busy an `ARG` read is refused. -/
theorem test_busy_arg : (match step { State.reset.start 0#32 with agenda := [rd 0 0x08] } with
    | .refused r => r == .busy 0x08 | _ => false) = true := by decide
/-- R323: a result read after the command has completed and before a poll is refused. -/
theorem test_unpolled_result : (match step { State.reset with unpolled := true, agenda := [rd 0 0x18] } with
    | .refused r => r == .busy 0x18 | _ => false) = true := by decide
/-- R323: the poll that returns `BUSY = 0` ends the wait. -/
theorem test_idle_poll : (match step { State.reset with unpolled := true, agenda := [pollStatus 0] } with
    | .next t => !t.unpolled | _ => false) = true := by decide
/-- R323: a poll that returns `BUSY = 1` does not. -/
theorem test_busy_poll : (match step { State.reset.start 0#32 with agenda := [pollStatus 0] } with
    | .next t => t.unpolled | _ => false) = true := by decide
/-- R62: a hole is refused. -/
theorem test_hole : (match step { State.reset with agenda := [rdb 0 0x1930] } with
    | .refused r => r == .hole 0x1930 | _ => false) = true := by decide
/-- R97: an illegal word is an error, not a stop. -/
theorem test_illegal_command : leaves (step (State.reset.start 0x00000005#32)) 0x32#32 0#32 0#32 0#32 0#32 := by
  decide
/-- The word placed by `withFetchWord` is run by the very next step. -/
theorem test_fetch_word : leaves (step (State.reset.withFetchWord 32 0x1328)) 0x02#32 16#32 8#32 2328#32 0#32 := by
  decide +kernel

/-! ### Witnesses: states and operands that meet the hypotheses of each statement that has some -/

/-- A state in which this word is pending and the ENGINE has the turn. -/
def pending (w : Word) : State := State.reset.start w

/-- A state after a failed command, its registers all nonzero. -/
def busyless : State :=
  { State.reset with
    arg0 := 1#32, arg1 := 2#32, arg2 := 3#32, arg3 := 4#32, res0 := 5#32, res1 := 6#32, res2 := 7#32, res3 := 8#32
    status := 0x12#32 }

theorem witness_MaskedMatchSelectsTheRow :
    0x00000103#32 &&& (formatOf (.edcGen .audio)).mask = 0#24 ++ opcode (.edcGen .audio) ∧
    0x00000503#32 &&& (formatOf (.edcGen .audio)).mask = 0#24 ++ opcode (.edcGen .audio) ∧
    0x00004928#32 &&& (formatOf (.layout .audio .sync)).mask = 0#24 ++ opcode (.layout .audio .sync) ∧
    decode 0x00000103#32 = .ok (.edcGen .cdMode1) := by decide
theorem witness_StepRunsTheDecodedCommand :
    (pending 0x103#32).cmd = some 0x103#32 ∧ decode 0x103#32 = .ok (.edcGen .cdMode1) ∧ (pending 0x103#32).agenda = [] ∧
    ({ pending 0x103#32 with agenda := [.engine, .reset] } : State).agenda = .engine :: [.reset] := by decide
theorem witness_IllegalWordRaises :
    (pending 0x503#32).cmd = some 0x503#32 ∧ illegality 0x503#32 = some .reservedMode ∧ (pending 0x503#32).agenda = [] ∧
    ({ pending 0x503#32 with agenda := [.engine] } : State).agenda = .engine :: [] := by decide
theorem witness_IdleBlockStaysAsItIs : State.reset.cmd = none ∧ State.reset.agenda = [] ∧
    ({ State.reset with agenda := [.engine] } : State).agenda = .engine :: [] := by decide
theorem witness_StepKeepsTheInvariant :
    (pending 0x14#32).inv = true ∧ ∃ t, step (pending 0x14#32) = .next t := ⟨by decide, _, rfl⟩
theorem witness_ConfigurationNeverChanges :
    ∃ t, step { State.reset with agenda := [.reset] } = .next t := ⟨_, rfl⟩
theorem witness_CommandsKeepArguments : ∃ t, exec .subGen busyless = .next t := ⟨_, rfl⟩
theorem witness_FailedCommandWritesNothingElse :
    ∃ t, exec .bin2bcd (withArgs 100#32 0#32 0#32 0#32) = .next t ∧ t.err ≠ 0#4 := ⟨_, rfl, by decide⟩
theorem witness_ResultsDependOnInputsAlone :
    State.reset.SameInputs { State.reset with res0 := 1#32, status := 0x22#32 } ∧
    (∃ t, exec .subInt State.reset = .next t) ∧
    ∃ t, exec .subInt { State.reset with res0 := 1#32, status := 0x22#32 } = .next t :=
  ⟨⟨rfl, rfl, rfl, rfl, rfl, fun _ _ => rfl⟩, ⟨_, rfl⟩, _, rfl⟩
theorem witness_CommandLineIsAtomicForEveryLatency :
    ({ State.reset with agenda := commandLine 0 2 .subGen ++ [.reset] } : State).busy = false ∧
    ({ State.reset with agenda := commandLine 0 2 .subGen ++ [.reset] } : State).unpolled = false ∧
    ∃ t, exec .subGen { State.reset with agenda := commandLine 0 2 .subGen ++ [.reset] } = .next t :=
  ⟨by decide, by decide, _, rfl⟩
theorem witness_HostReadsAndWritesRegisters : busyless.busy = false ∧ busyless.unpolled = false := by decide
theorem witness_HostReadsAndWritesBufferBytes : State.reset.busy = false ∧ State.reset.unpolled = false ∧
    ∀ off ∈ [0x1000, 0x192F, 0x2000, 0x205F, 0x2080, 0x20DF],
      (0x1000 ≤ off ∧ off < 0x1930) ∨ (0x2000 ≤ off ∧ off < 0x2060) ∨ (0x2080 ≤ off ∧ off < 0x20E0) := by decide
theorem witness_BusyBlockAnswersStatusOnly : (pending 0#32).busy = true ∧
    ({ busyless with unpolled := true } : State).unpolled = true ∧
    ({ busyless with unpolled := true } : State).busy = false ∧
    (∀ a ∈ [Access.read .word 0x04, .read .half 0x04, .read .word 0x00, .write .byte 0x2FFF 0#32],
      (pending 0#32).cfg.base ≤ a.addr ∧ a.addr < (pending 0#32).cfg.base + 0x3000) ∧
    Access.read .word 0x04 = .read .word ((pending 0#32).cfg.base + 0x04) ∧
    Access.write .byte 0x2FFF 0#32 ≠ .read .word ((pending 0#32).cfg.base + 0x04) := by decide
theorem witness_MeaninglessAccessesAreRefused : State.reset.busy = false ∧ State.reset.unpolled = false ∧
    (∀ off ∈ [0x28, 0xFFF, 0x1930, 0x1FFF, 0x2060, 0x207F, 0x20E0, 0x2FFF],
      (Access.read .byte off).addr = State.reset.cfg.base + off ∧
      ((0x28 ≤ off ∧ off < 0x1000) ∨ (0x1930 ≤ off ∧ off < 0x2000) ∨ (0x2060 ≤ off ∧ off < 0x2080) ∨
        (0x20E0 ≤ off ∧ off < 0x3000))) ∧
    (0x26 < 0x28 ∧ 0x26 % 4 ≠ 0 ∧ (Access.read .word 0x26).addr = State.reset.cfg.base + 0x26) ∧
    (0x24 < 0x28 ∧ (Access.write .half 0x24 0#32).width ≠ .word) ∧
    (0x192F < 0x1930 ∧ (Access.read .word 0x192F).width ≠ .byte) ∧
    (0x3000 ≤ 0x3000 ∧ (Access.read .byte 0x3000).addr = State.reset.cfg.base + 0x3000) := by decide
theorem witness_ResetAbandonsAndForgets :
    ({ pending 0x21#32 with agenda := [.reset, .engine] } : State).agenda = .reset :: [.engine] := by decide
theorem witness_Crc16OfARange :
    (withArgs 90#32 6#32 0#32 0#32).arg0.toNat + (withArgs 90#32 6#32 0#32 0#32).arg1.toNat ≤ 96 ∧
    96 < (withArgs 90#32 7#32 0#32 0#32).arg0.toNat + (withArgs 90#32 7#32 0#32 0#32).arg1.toNat := by decide
theorem witness_EdcOfARange :
    (withArgs 0#32 2000#32 352#32 0#32).arg1.toNat + (withArgs 0#32 2000#32 352#32 0#32).arg2.toNat ≤ 2352 ∧
    2352 < (withArgs 0#32 2000#32 353#32 0#32).arg1.toNat + (withArgs 0#32 2000#32 353#32 0#32).arg2.toNat := by decide
theorem witness_EdcLaws : [1#8, 2#8].length = [3#8, 255#8].length := by decide
theorem witness_Crc16Laws : (0x00#8 : Byte) ≠ 0x80#8 := by decide
theorem witness_EdcGenStoresTheEdc :
    (TrackMode.cdMode1, 0x000, 2064, 0x810) ∈ edcRows ∧ (TrackMode.cdMode2Form1, 0x010, 2056, 0x818) ∈ edcRows ∧
    (TrackMode.cdMode2Form2, 0x010, 2332, 0x92C) ∈ edcRows ∧
    (TrackMode.cdMode2Formless = .audio ∨ TrackMode.cdMode2Formless = .cdMode2Formless) := by decide
theorem witness_EdcChkCompares : (TrackMode.cdMode2Form2, 0x010, 2332, 0x92C) ∈ edcRows ∧
    (TrackMode.audio = .audio ∨ TrackMode.audio = .cdMode2Formless) := by decide
theorem witness_EdcGenThenChkMatches :
    ∃ t, exec (.edcGen .cdMode2Form2) State.reset = .next t ∧ t.err = 0#4 := ⟨_, rfl, by decide⟩
theorem witness_EveryByteInOneRow : (2063 < 2064 ∧ 2235 < 2236 ∧ 85 < 86 ∧ 51 < 52) ∧
    2063 ∈ eccVisits pParams (eccStart pParams 85) 24 ∧
    (eccVisits pParams (eccStart pParams 85) 24)[23]? = some 2063 ∧
    (eccVisits qParams (eccStart qParams 1) 43)[0]? = some 1 ∧
    1 ∈ eccVisits qParams (eccStart qParams 1) 43 := by decide +kernel
theorem witness_ParityGenerationStoresThePairs : (TrackMode.cdMode1 = .cdMode1 ∨ TrackMode.cdMode1 = .cdMode2Form1) ∧
    (TrackMode.cdMode2Form2 = .audio ∨ TrackMode.cdMode2Form2 = .cdMode2Formless ∨
      TrackMode.cdMode2Form2 = .cdMode2Form2) := by decide
theorem witness_ParityCheckCompares : (TrackMode.cdMode2Form1 = .cdMode1 ∨ TrackMode.cdMode2Form1 = .cdMode2Form1) ∧
    (TrackMode.cdMode2Formless = .audio ∨ TrackMode.cdMode2Formless = .cdMode2Formless ∨
      TrackMode.cdMode2Formless = .cdMode2Form2) := by decide
theorem witness_GeneratedParityChecks : (TrackMode.cdMode1 = .cdMode1 ∨ TrackMode.cdMode1 = .cdMode2Form1) ∧
    (∃ t, exec (.eccpGen .cdMode1) State.reset = .next t) ∧ ∃ t, exec (.eccqGen .cdMode1) State.reset = .next t :=
  ⟨by decide, ⟨_, rfl⟩, _, rfl⟩
theorem witness_InterleaveRoundTrip : (List.replicate 96 0x5A#8).length = 96 := by decide
/-- The operand check of QBuildWritesTheRecord, in the statement's own terms. -/
def qBuildOk (s : State) : Bool :=
  decide ((s.arg2.extractLsb' 8 8).toNat ≤ 99) && decide ((s.arg2.extractLsb' 0 8).toNat ≤ 99) &&
  decide (s.arg1.toNat ≤ 449999) && decide (0 ≤ s.arg0.toInt + 150) && decide (s.arg0.toInt + 150 ≤ 449999)

/-- Both ends of the operand ranges (V-Q-4, V-Q-3), and one operand just outside (V-Q-5 to V-Q-9). -/
theorem witness_QBuildWritesTheRecord :
    qBuildOk (withArgs 449849#32 449999#32 0x000F6363#32 0#32) = true ∧
    qBuildOk (withArgs (-150#32) 0#32 0#32 0#32) = true ∧
    qBuildOk (withArgs 449850#32 0#32 0x101#32 0#32) = false ∧
    qBuildOk (withArgs (-151#32) 0#32 0x101#32 0#32) = false ∧
    qBuildOk (withArgs 0#32 450000#32 0x101#32 0#32) = false ∧
    qBuildOk (withArgs 0#32 0#32 0x6401#32 0#32) = false ∧
    qBuildOk (withArgs 0#32 0#32 0x164#32 0#32) = false := by decide
theorem witness_QParseReadsBackQBuild :
    ∃ t, exec .qBuild (withArgs 449849#32 449999#32 0x000F6363#32 0#32) = .next t ∧ t.err = 0#4 :=
  ⟨_, rfl, by decide +kernel⟩
/-- The operand check of SubGenWritesTheWindow, default pregap model, in the statement's own terms. -/
def subGenOk (s : State) : Bool :=
  let lba := s.arg0.toInt
  let stop : Int := s.arg1.toInt + s.arg2.toNat
  let rel := if lba < stop then stop - lba else lba - stop
  decide ((s.arg3.extractLsb' 8 8).toNat ≤ 99) && decide ((s.arg3.extractLsb' 0 8).toNat ≤ 99) &&
  decide (rel ≤ 449999) && decide (0 ≤ lba + 150) && decide (lba + 150 ≤ 449999)

/-- The last pregap sector and the first after it (V-GEN-2, V-GEN-3), the largest LBA, and one operand just outside
(V-GEN-11 to V-GEN-13). -/
theorem witness_SubGenWritesTheWindow :
    subGenOk (withArgs 149#32 0#32 150#32 0x00040100#32) = true ∧
    subGenOk (withArgs 150#32 0#32 150#32 0x00040101#32) = true ∧
    subGenOk (withArgs 449849#32 0#32 0#32 0x00046363#32) = true ∧
    subGenOk (withArgs (-151#32) 0#32 150#32 0x00040100#32) = false ∧
    subGenOk (withArgs 0#32 0#32 450000#32 0x00000100#32) = false ∧
    subGenOk (withArgs 10#32 0#32 150#32 0x00006400#32) = false := by decide
theorem witness_BcdConversions : 99 ≤ 99 := by decide
theorem witness_Bin2bcdConverts : (withArgs 99#32 0#32 0#32 0#32).arg0.toNat ≤ 99 ∧
    99 < (withArgs 100#32 0#32 0#32 0#32).arg0.toNat := by decide
theorem witness_Lba2msfConverts :
    (-150 ≤ (-150#32 : Word).toInt ∧ (-150#32 : Word).toInt ≤ 449849) ∧
    (-150 ≤ (449849#32 : Word).toInt ∧ (449849#32 : Word).toInt ≤ 449849) ∧
    (-151#32 : Word).toInt < -150 ∧ 449849 < (449850#32 : Word).toInt := by decide
theorem witness_TimecodeLaws : bcdValid 0x99#8 = true ∧
    ∃ t, exec .lba2msf (withArgs (-150#32) 0#32 0#32 0#32) = .next t ∧ t.err = 0#4 := ⟨by decide, _, rfl, by decide⟩

/-- A sector made by `syncedSector` has the sync. -/
theorem syncedSector_sync (mode : Byte) : (syncedSector mode [] State.reset).SyncHolds := by
  refine ⟨rfl, fun i h1 h2 => ?_, rfl⟩
  interval_cases i <;> rfl

theorem witness_SecCheckUnclassedAndMode0 :
    ¬(zeroSector State.reset).SyncHolds ∧ 2 < ((syncedSector 0x03#8 [] State.reset).sec 15).toNat ∧
    (syncedSector 0x00#8 [] State.reset).SyncHolds ∧ (syncedSector 0x00#8 [] State.reset).sec 15 = 0x00#8 :=
  ⟨fun h => absurd (h.2.1 1 (by decide) (by decide)) (by decide +kernel), by decide +kernel, syncedSector_sync _,
    by decide +kernel⟩
theorem witness_SecCheckMode1AndForm1 :
    (syncedSector 0x01#8 [] State.reset).SyncHolds ∧ (syncedSector 0x01#8 [] State.reset).sec 15 = 0x01#8 ∧
    (syncedSector 0x02#8 [] State.reset).SyncHolds ∧ (syncedSector 0x02#8 [] State.reset).sec 15 = 0x02#8 ∧
    ((syncedSector 0x02#8 [] State.reset).sec 18).getLsbD 5 = false :=
  ⟨syncedSector_sync _, by decide +kernel, syncedSector_sync _, by decide +kernel, by decide +kernel⟩
theorem witness_SecCheckForm2 :
    let s := (syncedSector 0x02#8 [] State.reset).storeSec 16 [0#8, 0#8, 0x20#8, 0#8]
    s.SyncHolds ∧ s.sec 15 = 0x02#8 ∧ (s.sec 18).getLsbD 5 = true := by
  refine ⟨⟨rfl, fun i h1 h2 => ?_, rfl⟩, by decide +kernel, by decide +kernel⟩
  interval_cases i <;> rfl
theorem witness_SecBuildLeavesAConsistentSector : (TrackMode.cdMode1 ≠ .audio) ∧
    (withArgs (-151#32) 0#32 0#32 0#32).arg0.toInt < -150 ∧ 449849 < (withArgs 449850#32 0#32 0#32 0#32).arg0.toInt ∧
    -150 ≤ (withArgs (-150#32) 0#32 0#32 0#32).arg0.toInt ∧
    (withArgs 449849#32 0#32 0#32 0#32).arg0.toInt ≤ 449849 := by decide
/-- Built from a second sub-header copy whose form bit is clear, or set. -/
theorem witness_BuiltSectorChecks :
    (∃ t, exec (.secBuild .cdMode1) State.reset = .next t ∧ t.err = 0#4) ∧
    (∃ t, exec (.secBuild .cdMode2Form1) (State.reset.storeSec 16 (List.replicate 8 0x00#8)) = .next t ∧ t.err = 0#4 ∧
      (t.sec 18).getLsbD 5 = false) ∧
    (∃ t, exec (.secBuild .cdMode2Form2) (State.reset.storeSec 16 (List.replicate 8 0x20#8)) = .next t ∧ t.err = 0#4 ∧
      (t.sec 18).getLsbD 5 = true) :=
  ⟨⟨_, rfl, by decide +kernel⟩, ⟨_, rfl, by decide +kernel, by decide +kernel⟩, _, rfl, by decide +kernel,
    by decide +kernel⟩
theorem witness_SecBuildIsIdempotent :
    ∃ t, exec (.secBuild .cdMode2Formless) State.reset = .next t ∧ t.err = 0#4 := ⟨_, rfl, by decide⟩
theorem witness_LayoutLooksUpTheTable : fieldLayout .cdMode1 .subHeader = none ∧
    fieldLayout .audio .userData = some ⟨0, 2352, 0⟩ := by decide
theorem witness_LayoutSumsToTheSector : fieldLayout .cdMode2Form2 .userData = some ⟨24, 2324, 4⟩ := by decide
theorem witness_LayoutAgreesWithTheEngine : edcField .audio = none ∧
    (TrackMode.cdMode2Form1, 0x010, 2056, 0x818) ∈ edcRows := by decide

end Sys2Proof.Tests
end

section
/-! PROOFS. The family `30_encoding.md`: the decoder and the five tests of R97 agree on every word (R98), and NOP (R103).

The tests of `illegality` speak of the word as a number and of masks, the decoder of bit fields. The bridge is: one
lemma per field, one lemma per format (R92), and one lemma that says which format the decoder dispatches an opcode to. -/

namespace Sys2Proof

/-! ### The fields of a word (R91) as numbers, and the masks of R92 as fields -/

theorem zeroField_eq_zero_iff (w : Word) : zeroField w = 0#16 ↔ w.toNat / 2 ^ 16 = 0 := by
  have hw : w.toNat < 2 ^ 32 := w.isLt
  rw [← BitVec.toNat_inj, zeroField, BitVec.extractLsb'_toNat, Nat.shiftRight_eq_div_pow, BitVec.toNat_ofNat]
  omega

theorem opcField_toNat (w : Word) : (opcField w).toNat = w.toNat % 2 ^ 8 := by
  simp [opcField]

theorem modeField_toNat (w : Word) : (modeField w).toNat = w.toNat / 2 ^ 8 % 2 ^ 3 := by
  rw [modeField, BitVec.extractLsb'_toNat, Nat.shiftRight_eq_div_pow]

theorem tagField_toNat (w : Word) : (tagField w).toNat = w.toNat / 2 ^ 11 % 2 ^ 4 := by
  rw [tagField, BitVec.extractLsb'_toNat, Nat.shiftRight_eq_div_pow]

/-- A word masked to the bits `start` to `start + len - 1` is 0 exactly when that field is. -/
theorem and_fieldMask_eq_zero_iff (w : Word) (start len : Nat) (h : start + len ≤ 32) :
    w &&& (BitVec.allOnes len).setWidth 32 <<< start = 0#32 ↔ w.extractLsb' start len = 0#len := by
  constructor <;> intro hz
  · ext i hi
    have hbit := congrArg (·.getLsbD (start + i)) hz
    have hlt : start + i < 32 := by omega
    simpa [hi, hlt] using hbit
  · ext i hi
    by_cases hin : start ≤ i ∧ i - start < len
    · obtain ⟨hle, hlt⟩ := hin
      have hbit := congrArg (·.getLsbD (i - start)) hz
      have hzero : w.getLsbD i = false := by simpa [hlt, Nat.add_sub_cancel' hle] using hbit
      simp [← BitVec.getLsbD_eq_getElem, hzero]
    · simp
      omega

/-- R93: exactly the numbers from 5 up name no TrackMode. -/
theorem modeOfBits_eq_none_iff (b : BitVec 3) : modeOfBits b = none ↔ 5 ≤ b.toNat := by
  decide +revert

/-- R94: exactly the numbers from 9 up name no SectorFieldTag. -/
theorem tagOfBits_eq_none_iff (b : BitVec 4) : tagOfBits b = none ↔ 9 ≤ b.toNat := by
  decide +revert

/-! ### The tests of one format -/

/-- Tests 3 to 5 of R97 for a word whose opcode has the format `f`. -/
def formatIllegality (f : Format) (w : Word) : Option IllegalWord :=
  if w &&& f.mask &&& 0x0000FF00#32 ≠ 0#32 then some .unusedFieldSet
  else if f.usesMode ∧ 5 ≤ w.toNat / 2 ^ 8 % 2 ^ 3 then some .reservedMode
  else if f.usesTag ∧ 9 ≤ w.toNat / 2 ^ 11 % 2 ^ 4 then some .reservedTag
  else none

theorem illegality_of_zeroField_ne {w : Word} (h : zeroField w ≠ 0#16) : illegality w = some .zeroFieldSet :=
  if_pos (mt (zeroField_eq_zero_iff w).2 h)

theorem illegality_of_lookup_none {w : Word} (h : zeroField w = 0#16)
    (hl : opcodeMap.lookup (opcField w).toNat = none) : illegality w = some .reservedOpcode := by
  rw [opcField_toNat] at hl
  simp only [illegality, (zeroField_eq_zero_iff w).1 h, hl, ne_eq, not_true_eq_false, if_false]

theorem illegality_of_lookup_some {w : Word} {f : Format} (h : zeroField w = 0#16)
    (hl : opcodeMap.lookup (opcField w).toNat = some f) : illegality w = formatIllegality f w := by
  rw [opcField_toNat] at hl
  simp only [illegality, (zeroField_eq_zero_iff w).1 h, hl, ne_eq, not_true_eq_false, if_false, formatIllegality]

/-! Test 3 per format: the bits the format leaves unused, as `illegality` masks them and as the decoder reads them. -/

theorem unusedField_f0 (w : Word) : w &&& Format.f0.mask &&& 0x0000FF00#32 = 0#32 ↔ w.extractLsb' 8 8 = 0#8 := by
  rw [BitVec.and_assoc]
  exact and_fieldMask_eq_zero_iff w 8 8 (by decide)

theorem unusedField_fm (w : Word) : w &&& Format.fm.mask &&& 0x0000FF00#32 = 0#32 ↔ w.extractLsb' 11 5 = 0#5 := by
  rw [BitVec.and_assoc]
  exact and_fieldMask_eq_zero_iff w 11 5 (by decide)

theorem unusedField_fmt (w : Word) : w &&& Format.fmt.mask &&& 0x0000FF00#32 = 0#32 ↔ bcdField w = false := by
  have hbit : w.extractLsb' 15 1 = 0#1 ↔ bcdField w = false := by
    simp [BitVec.eq_of_getLsbD_eq_iff, bcdField]
  rw [BitVec.and_assoc, ← hbit]
  exact and_fieldMask_eq_zero_iff w 15 1 (by decide)

theorem unusedField_fb (w : Word) : w &&& Format.fb.mask &&& 0x0000FF00#32 = 0#32 ↔ w.extractLsb' 8 7 = 0#7 := by
  rw [BitVec.and_assoc]
  exact and_fieldMask_eq_zero_iff w 8 7 (by decide)

/-! ### The decoder's answer and the tests' answer -/

/-- The reason a decoder's answer gives, if it refuses. -/
def refusalOf : Except IllegalWord Instr → Option IllegalWord
  | .ok _ => none
  | .error r => some r

@[simp] theorem refusalOf_ok (i : Instr) : refusalOf (.ok i) = none := rfl
@[simp] theorem refusalOf_error (r : IllegalWord) : refusalOf (.error r) = some r := rfl

theorem refusalOf_eq_none {d : Except IllegalWord Instr} (h : refusalOf d = none) : ∃ i, d = .ok i := by
  cases d with
  | ok i => exact ⟨i, rfl⟩
  | error r => cases h

theorem refusalOf_eq_some {d : Except IllegalWord Instr} {r : IllegalWord} (h : refusalOf d = some r) :
    d = .error r := by
  cases d with
  | ok i => cases h
  | error r' => exact congrArg Except.error (Option.some.inj h)

theorem refusalOf_decodeF0 (w : Word) (i : Instr) : refusalOf (decodeF0 w i) = formatIllegality .f0 w := by
  simp only [decodeF0, formatIllegality, ne_eq, unusedField_f0]
  split <;> simp [Format.usesMode, Format.usesTag]

theorem refusalOf_decodeFB (w : Word) (mk : Bool → Instr) :
    refusalOf (decodeFB w mk) = formatIllegality .fb w := by
  simp only [decodeFB, formatIllegality, ne_eq, unusedField_fb]
  split <;> simp [Format.usesMode, Format.usesTag]

theorem refusalOf_decodeFM (w : Word) (mk : TrackMode → Instr) :
    refusalOf (decodeFM w mk) = formatIllegality .fm w := by
  have hmode := modeOfBits_eq_none_iff (modeField w)
  simp only [decodeFM, formatIllegality, ne_eq, unusedField_fm, ← modeField_toNat, ← hmode]
  split
  · rfl
  · cases modeOfBits (modeField w) <;> simp [Format.usesMode, Format.usesTag]

theorem refusalOf_decodeFMT (w : Word) (mk : TrackMode → FieldTag → Instr) :
    refusalOf (decodeFMT w mk) = formatIllegality .fmt w := by
  have hmode := modeOfBits_eq_none_iff (modeField w)
  have htag := tagOfBits_eq_none_iff (tagField w)
  simp only [decodeFMT, formatIllegality, ne_eq, unusedField_fmt, ← modeField_toNat, ← tagField_toNat, ← hmode,
    ← htag]
  cases bcdField w with
  | true => rfl
  | false =>
    cases modeOfBits (modeField w) with
    | none => rfl
    | some m => cases tagOfBits (tagField w) <;> rfl

/-! ### The opcode (R96) -/

/-- The decoder's answer for a word whose opcode the map of R96 gives the entry `f`: the reserved opcode's refusal, or
the answer of the format's own decoder for some command of the format. -/
def DecodesBy (w : Word) : Option Format → Prop
  | none => decode w = .error .reservedOpcode
  | some .f0 => ∃ i, decode w = decodeF0 w i
  | some .fm => ∃ mk, decode w = decodeFM w mk
  | some .fmt => ∃ mk, decode w = decodeFMT w mk
  | some .fb => ∃ mk, decode w = decodeFB w mk

theorem decode_of_zeroField_ne {w : Word} (h : zeroField w ≠ 0#16) : decode w = .error .zeroFieldSet :=
  if_pos h

/-- The decoder's rows and the opcode map of R96 give every opcode the same format. -/
theorem decodesBy_lookup {w : Word} (h : zeroField w = 0#16) :
    DecodesBy w (opcodeMap.lookup (opcField w).toNat) := by
  have hd := decode.eq_1 w
  rw [if_neg (not_not.2 h)] at hd
  split at hd
  case h_22 =>
    have hnone : opcodeMap.lookup (opcField w).toNat = none := by
      rw [List.lookup_eq_none_iff]
      simp_all [opcodeMap]
    rwa [hnone]
  all_goals
    next hopc =>
      rw [hopc]
      exact Exists.intro _ hd

/-- R97, R98: the five tests name a reason exactly when the decoder refuses, and the same one. -/
theorem illegality_eq_refusalOf_decode (w : Word) : illegality w = refusalOf (decode w) := by
  by_cases h : zeroField w = 0#16
  · have hby := decodesBy_lookup h
    cases hl : opcodeMap.lookup (opcField w).toNat with
    | none =>
      rw [hl] at hby
      rw [illegality_of_lookup_none h hl, show decode w = _ from hby, refusalOf_error]
    | some f =>
      rw [hl] at hby
      rw [illegality_of_lookup_some h hl]
      cases f with
      | f0 => obtain ⟨i, hd⟩ := hby; rw [hd, refusalOf_decodeF0]
      | fm => obtain ⟨mk, hd⟩ := hby; rw [hd, refusalOf_decodeFM]
      | fmt => obtain ⟨mk, hd⟩ := hby; rw [hd, refusalOf_decodeFMT]
      | fb => obtain ⟨mk, hd⟩ := hby; rw [hd, refusalOf_decodeFB]
  · rw [illegality_of_zeroField_ne h, decode_of_zeroField_ne h, refusalOf_error]

end Sys2Proof

namespace Sys2Proof.Machine

/-! ### NOP (R103) -/

/-- What a completion writes: the four results, `STATUS` with `DONE` alone, and `CMD`; every other field stays. -/
theorem State.finish_eq (s : State) (r0 r1 r2 r3 : Word) : s.finish r0 r1 r2 r3 =
    { s with res0 := r0, res1 := r1, res2 := r2, res3 := r3, status := 0x00000002#32, cmd := none } := rfl

theorem exec_nop (s : State) : exec .nop s = .next (s.finish 0#32 0#32 0#32 0#32) := rfl

end Sys2Proof.Machine

namespace Sys2Proof

open Machine

/-! ### The obligations -/

/-- Settles O2: the tests' answer is the decoder's refusal, so the two clauses are its two cases. -/
theorem everyWordIsOneCommandOrIllegal : Obligations.EveryWordIsOneCommandOrIllegal := by
  intro w
  have hagree := illegality_eq_refusalOf_decode w
  cases hw : illegality w with
  | none =>
    obtain ⟨i, hi⟩ := refusalOf_eq_none (hagree.symm.trans hw)
    exact .inl ⟨rfl, i, hi, fun j hj => Except.ok.inj (hj.symm.trans hi)⟩
  | some r => exact .inr ⟨r, rfl, refusalOf_eq_some (hagree.symm.trans hw)⟩

/-- Settles O24: the all-zero word is NOP, and NOP is a completion with four zero results (R103). -/
theorem nopClearsResults : Obligations.NopClearsResults :=
  ⟨by decide, fun s => by rw [exec_nop, State.finish_eq]⟩

end Sys2Proof
end

section
/-! PROOFS. The family `41_ecc.md`: the two field tables (R150, R151).

`ECC_F` multiplies by α. The first table's formula is its 8-bit shift compared with the 9-bit one the spec reduces. The
second table inverts `i ↦ i ^ ECC_F[i]`, which is linear with kernel 0, and so injective: the search of `eccB` can find
no other byte. -/

namespace Sys2Proof.Machine

/-! ### ECC_F (R150) -/

theorem eccF_toNat (i : Byte) :
    (eccF i).toNat = ((i.toNat <<< 1) ^^^ (if i.getLsbD 7 then 0x11D else 0)) &&& 0xFF := by
  have hmask (n : Nat) : n &&& 0xFF = n % 2 ^ 8 := Nat.and_two_pow_sub_one_eq_mod n 8
  rw [hmask, Nat.xor_mod_two_pow, eccF, BitVec.toNat_xor, BitVec.toNat_shiftLeft]
  cases i.getLsbD 7 <;> rfl

/-- `ECC_F` is linear over GF(2). -/
theorem eccF_xor (i j : Byte) : eccF (i ^^^ j) = eccF i ^^^ eccF j := by
  have hreduce (b c : Bool) : (if b ^^ c then 0x1D#8 else 0#8) =
      (if b then 0x1D#8 else 0#8) ^^^ (if c then 0x1D#8 else 0#8) := by
    cases b <;> cases c <;> rfl
  simp only [eccF, BitVec.shiftLeft_xor_distrib, BitVec.getLsbD_xor, hreduce]
  ac_rfl

/-! ### ECC_B (R151) -/

/-- The kernel of `i ↦ i ^ ECC_F[i]` is 0. -/
theorem eq_zero_of_xor_eccF_eq_zero : ∀ i : Byte, i ^^^ eccF i = 0#8 → i = 0#8 := by decide

theorem xor_eccF_injective : Function.Injective fun i : Byte => i ^^^ eccF i := by
  intro i j (h : i ^^^ eccF i = j ^^^ eccF j)
  have hkernel : (i ^^^ j) ^^^ eccF (i ^^^ j) = 0#8 :=
    calc (i ^^^ j) ^^^ eccF (i ^^^ j) = (i ^^^ eccF i) ^^^ (j ^^^ eccF j) := by rw [eccF_xor]; ac_rfl
      _ = 0#8 := by rw [h, BitVec.xor_self]
  exact BitVec.xor_eq_zero_iff.1 (eq_zero_of_xor_eccF_eq_zero _ hkernel)

theorem mem_allBytes (i : Byte) : i ∈ (List.range 256).map (BitVec.ofNat 8) :=
  List.mem_map.2 ⟨i.toNat, List.mem_range.2 i.isLt, (BitVec.ofNat_toNat 8 i).trans i.setWidth_eq⟩

theorem eccB_xor_eccF (i : Byte) : eccB (i ^^^ eccF i) = i := by
  rw [eccB]
  cases hfind : List.find? (fun j => j ^^^ eccF j == i ^^^ eccF i) ((List.range 256).map (BitVec.ofNat 8)) with
  | none => exact absurd BEq.rfl (List.find?_eq_none.1 hfind i (mem_allBytes i))
  | some j =>
    have hj := List.find?_some hfind
    exact xor_eccF_injective (eq_of_beq hj)

end Sys2Proof.Machine

namespace Sys2Proof

open Machine

/-! ### The obligation -/

/-- Settles O33: R150's formula by `eccF_toNat`, R151's loop by the injectivity of `i ^ ECC_F[i]`. -/
theorem fieldTables : Obligations.FieldTables := ⟨eccF_toNat, eccB_xor_eccF⟩

end Sys2Proof
end

section
/-! PROOFS. The family `43_bcd_timecode.md`: the BCD byte conversions (R221).

A BCD byte is two nibbles. As numbers they are the quotient and the remainder of the byte by 16, and `toBcd` writes the
two decimal digits of a number into them. -/

namespace Sys2Proof.Machine

/-! ### The nibbles of a byte -/

theorem highNibble_toNat (b : Byte) : (b.extractLsb' 4 4).toNat = b.toNat / 16 := by
  rw [BitVec.extractLsb'_toNat, Nat.shiftRight_eq_div_pow]
  exact Nat.mod_eq_of_lt (Nat.div_lt_of_lt_mul b.isLt)

theorem lowNibble_toNat (b : Byte) : (b.extractLsb' 0 4).toNat = b.toNat % 16 :=
  BitVec.extractLsb'_toNat 0 4 b

/-! ### The three functions of R221 -/

/-- Up to 99 both decimal digits fit their nibbles, and nothing is cut off. -/
theorem toBcd_toNat {v : Nat} (h : v ≤ 99) : (toBcd v).toNat = ((v / 10) <<< 4) ||| (v % 10) := by
  have htens : v / 10 < 2 ^ 4 := by omega
  have hunits : v % 10 < 2 ^ 4 := by omega
  rw [toBcd, BitVec.toNat_append, BitVec.toNat_ofNat, BitVec.toNat_ofNat, Nat.mod_eq_of_lt htens,
    Nat.mod_eq_of_lt hunits]

theorem fromBcd_eq (b : Byte) : fromBcd b = b.toNat / 16 * 10 + b.toNat % 16 := by
  rw [fromBcd, highNibble_toNat, lowNibble_toNat]

theorem bcdValid_iff (b : Byte) : bcdValid b = true ↔ b.toNat / 16 ≤ 9 ∧ b.toNat % 16 ≤ 9 := by
  rw [bcdValid, highNibble_toNat, lowNibble_toNat, Bool.and_eq_true, decide_eq_true_iff, decide_eq_true_iff]

end Sys2Proof.Machine

namespace Sys2Proof

open Machine

/-! ### The obligation -/

/-- Settles O46: one lemma per function of R221. -/
theorem bcdConversions : Obligations.BcdConversions :=
  ⟨fun _ hv => toBcd_toNat hv, fromBcd_eq, bcdValid_iff⟩

end Sys2Proof
end

section
/-! PROOFS. The family `30_encoding.md`, continued: the decoder and the encoder are inverse to each other (R98, R99),
and the masks of R92 select the rows of R96.

A word with `ZERO` clear is put together from its four other fields. Each format's decoder accepts a word exactly when
the fields the format does not use are 0 and the others name operands, so an accepted word has the fields the encoder
writes. -/

namespace Sys2Proof

/-! ### A word and its fields (R91) -/

/-- A word with `ZERO` clear is the word of its own fields. -/
theorem encodeFields_fields {w : Word} (h : zeroField w = 0#16) :
    encodeFields (bcdField w) (tagField w) (modeField w) (opcField w) = w := by
  apply BitVec.eq_of_getLsbD_eq
  intro i hi
  simp only [encodeFields, bcdField, tagField, modeField, opcField, BitVec.getLsbD_append, BitVec.getLsbD_extractLsb',
    BitVec.getLsbD_ofBool]
  have hzero : 16 ≤ i → w.getLsbD i = false := by
    intro hle
    have hbit := congrArg (·.getLsbD (i - 16)) h
    simpa [zeroField, show i - 16 < 16 by omega, Nat.add_sub_cancel' hle] using hbit
  split_ifs with h8 h11 h15 h16
  · simp [h8]
  · simp [h11, show 8 + (i - 8) = i by omega]
  · simp [h15, show 11 + (i - 8 - 3) = i by omega]
  · simp [show i = 15 by omega]
  · simp [hzero (by omega)]

theorem opcField_encodeFields (bcd : Bool) (tag : BitVec 4) (mode : BitVec 3) (opc : Byte) :
    opcField (encodeFields bcd tag mode opc) = opc := by
  apply BitVec.eq_of_getLsbD_eq
  intro i hi
  simp only [opcField, encodeFields, BitVec.getLsbD_extractLsb', BitVec.getLsbD_append]
  simp [hi]

theorem opcField_encode (i : Instr) : opcField (encode i) = opcode i := by
  cases i <;> exact opcField_encodeFields _ _ _ _

/-- R93: a `MODE` value that names a TrackMode is its number. -/
theorem modeBits_of_modeOfBits {b : BitVec 3} {m : TrackMode} : modeOfBits b = some m → modeBits m = b := by
  cases m <;> decide +revert

/-- R94: a `TAG` value that names a SectorFieldTag is its number. -/
theorem tagBits_of_tagOfBits {b : BitVec 4} {t : FieldTag} : tagOfBits b = some t → tagBits t = b := by
  cases t <;> decide +revert

/-- The fields of bits 15:8, when the bits from `start` on that a format leaves unused are 0. -/
theorem getLsbD_of_extractLsb'_eq_zero {w : Word} {start len k : Nat} (h : w.extractLsb' start len = 0#len)
    (hk : start ≤ k) (hlt : k < start + len) : w.getLsbD k = false := by
  have hbit := congrArg (·.getLsbD (k - start)) h
  simpa [show k - start < len by omega, Nat.add_sub_cancel' hk] using hbit

theorem bcdField_eq_false {w : Word} {start len : Nat} (h : w.extractLsb' start len = 0#len) (hs : start ≤ 15)
    (hl : 15 < start + len) : bcdField w = false :=
  getLsbD_of_extractLsb'_eq_zero h hs hl

theorem tagField_eq_zero {w : Word} {start len : Nat} (h : w.extractLsb' start len = 0#len) (hs : start ≤ 11)
    (hl : 14 < start + len) : tagField w = 0#4 := by
  apply BitVec.eq_of_getLsbD_eq
  intro i hi
  simp [tagField, hi, getLsbD_of_extractLsb'_eq_zero h (k := 11 + i) (by omega) (by omega)]

theorem modeField_eq_zero {w : Word} {start len : Nat} (h : w.extractLsb' start len = 0#len) (hs : start ≤ 8)
    (hl : 10 < start + len) : modeField w = 0#3 := by
  apply BitVec.eq_of_getLsbD_eq
  intro i hi
  simp [modeField, hi, getLsbD_of_extractLsb'_eq_zero h (k := 8 + i) (by omega) (by omega)]

/-! ### The words each format accepts -/

section
variable {w : Word} {i : Instr} (hz : zeroField w = 0#16)
include hz

theorem encodeFields_of_decodeF0 {i' : Instr} (h : decodeF0 w i' = .ok i) :
    i' = i ∧ encodeFields false 0#4 0#3 (opcField w) = w := by
  unfold decodeF0 at h
  split at h
  · cases h
  · rename_i hu
    have hu : w.extractLsb' 8 8 = 0#8 := not_not.1 hu
    refine ⟨Except.ok.inj h, ?_⟩
    rw [← bcdField_eq_false hu (by decide) (by decide), ← tagField_eq_zero hu (by decide) (by decide),
      ← modeField_eq_zero hu (by decide) (by decide), encodeFields_fields hz]

theorem encodeFields_of_decodeFM {mk : TrackMode → Instr} (h : decodeFM w mk = .ok i) :
    ∃ m, mk m = i ∧ encodeFields false 0#4 (modeBits m) (opcField w) = w := by
  unfold decodeFM at h
  split at h
  · cases h
  · rename_i hu
    have hu : w.extractLsb' 11 5 = 0#5 := not_not.1 hu
    split at h
    · cases h
    · rename_i m hm
      refine ⟨m, Except.ok.inj h, ?_⟩
      rw [← bcdField_eq_false hu (by decide) (by decide), ← tagField_eq_zero hu (by decide) (by decide),
        modeBits_of_modeOfBits hm, encodeFields_fields hz]

theorem encodeFields_of_decodeFMT {mk : TrackMode → FieldTag → Instr} (h : decodeFMT w mk = .ok i) :
    ∃ m t, mk m t = i ∧ encodeFields false (tagBits t) (modeBits m) (opcField w) = w := by
  unfold decodeFMT at h
  split at h
  · cases h
  · rename_i hb
    split at h
    · cases h
    · rename_i m hm
      split at h
      · cases h
      · rename_i t ht
        refine ⟨m, t, Except.ok.inj h, ?_⟩
        rw [← Bool.eq_false_of_not_eq_true hb, modeBits_of_modeOfBits hm, tagBits_of_tagOfBits ht,
          encodeFields_fields hz]

theorem encodeFields_of_decodeFB {mk : Bool → Instr} (h : decodeFB w mk = .ok i) :
    ∃ b, mk b = i ∧ encodeFields b 0#4 0#3 (opcField w) = w := by
  unfold decodeFB at h
  split at h
  · cases h
  · rename_i hu
    have hu : w.extractLsb' 8 7 = 0#7 := not_not.1 hu
    refine ⟨bcdField w, Except.ok.inj h, ?_⟩
    rw [← tagField_eq_zero hu (by decide) (by decide), ← modeField_eq_zero hu (by decide) (by decide),
      encodeFields_fields hz]

end

/-! ### The two directions of R98 -/

/-- Only the encoded word of a command decodes to it. -/
theorem encode_of_decode {w : Word} {i : Instr} (h : decode w = .ok i) : encode i = w := by
  by_cases hz : zeroField w = 0#16
  · rw [decode.eq_1, if_neg (not_not.2 hz)] at h
    have hopc {n : Nat} (hn : n < 2 ^ 8) (h : (opcField w).toNat = n) : BitVec.ofNat 8 n = opcField w := by
      rw [← h, BitVec.ofNat_toNat, BitVec.setWidth_eq]
    split at h
    case h_4 | h_5 | h_6 | h_7 | h_8 | h_9 | h_20 =>
      next hn =>
        obtain ⟨m, rfl, hw⟩ := encodeFields_of_decodeFM hz h
        rwa [← hopc (by decide) hn] at hw
    case h_12 =>
      next hn =>
        obtain ⟨b, rfl, hw⟩ := encodeFields_of_decodeFB hz h
        rwa [← hopc (by decide) hn] at hw
    case h_21 =>
      next hn =>
        obtain ⟨m, t, rfl, hw⟩ := encodeFields_of_decodeFMT hz h
        rwa [← hopc (by decide) hn] at hw
    case h_22 => cases h
    all_goals
      next hn =>
        obtain ⟨rfl, hw⟩ := encodeFields_of_decodeF0 hz h
        rwa [← hopc (by decide) hn] at hw
  · rw [decode_of_zeroField_ne hz] at h
    cases h

/-- The encoded word of a command decodes to it. -/
theorem decode_encode (i : Instr) : decode (encode i) = .ok i := by
  cases i with
  | edcGen m | edcChk m | eccpGen m | eccqGen m | eccpChk m | eccqChk m | secBuild m => cases m <;> decide
  | layout m t => cases m <;> cases t <;> decide
  | qParse b => cases b <;> decide
  | _ => decide

/-! ### The masks of R92 -/

/-- Every encoded word passes the five tests and has its row's match value under the mask. -/
theorem encodingFields (i : Instr) : Laws.EncodingFields.Statement i := by
  cases i with
  | nop => exact Laws.EncodingFields.nop
  | crc16 => exact Laws.EncodingFields.crc16
  | edc => exact Laws.EncodingFields.edc
  | edcGen m => exact Laws.EncodingFields.edcGen m
  | edcChk m => exact Laws.EncodingFields.edcChk m
  | eccpGen m => exact Laws.EncodingFields.eccpGen m
  | eccqGen m => exact Laws.EncodingFields.eccqGen m
  | eccpChk m => exact Laws.EncodingFields.eccpChk m
  | eccqChk m => exact Laws.EncodingFields.eccqChk m
  | subDeint => exact Laws.EncodingFields.subDeint
  | subInt => exact Laws.EncodingFields.subInt
  | qParse b => exact Laws.EncodingFields.qParse b
  | qBuild => exact Laws.EncodingFields.qBuild
  | subGen => exact Laws.EncodingFields.subGen
  | bcd2bin => exact Laws.EncodingFields.bcd2bin
  | bin2bcd => exact Laws.EncodingFields.bin2bcd
  | lba2msf => exact Laws.EncodingFields.lba2msf
  | msf2lba => exact Laws.EncodingFields.msf2lba
  | secCheck => exact Laws.EncodingFields.secCheck
  | secBuild m => exact Laws.EncodingFields.secBuild m
  | layout m t => exact Laws.EncodingFields.layout m t

/-- The opcode map gives the opcode of a command the command's format. -/
theorem lookup_opcode (i : Instr) : opcodeMap.lookup (opcode i).toNat = some (formatOf i) := by
  cases i <;> rfl

/-- Every mask keeps `ZERO` and `OPC`. -/
theorem mask_getLsbD (f : Format) {k : Nat} (hk : k < 8 ∨ 16 ≤ k) (hlt : k < 32) : f.mask.getLsbD k = true := by
  rcases hk with hk | hk
  · cases f <;> interval_cases k <;> rfl
  · cases f <;> interval_cases k <;> rfl

/-- A word that has a row's match value under the row's mask has `ZERO` clear, the row's opcode, and the bits the row's
format does not use clear. -/
theorem fields_of_masked {w : Word} {f : Format} {opc : Byte} (h : w &&& f.mask = 0#24 ++ opc) :
    zeroField w = 0#16 ∧ opcField w = opc ∧ w &&& f.mask &&& 0x0000FF00#32 = 0#32 := by
  have hbit {k : Nat} (hk : k < 8 ∨ 16 ≤ k) (hlt : k < 32) : w.getLsbD k = (0#24 ++ opc : Word).getLsbD k := by
    rw [← h, BitVec.getLsbD_and, mask_getLsbD f hk hlt, Bool.and_true]
  refine ⟨?_, ?_, ?_⟩
  · apply BitVec.eq_of_getLsbD_eq
    intro i hi
    rw [zeroField, BitVec.getLsbD_extractLsb', hbit (by omega) (by omega), BitVec.getLsbD_append]
    simp [show ¬ 16 + i < 8 by omega]
  · apply BitVec.eq_of_getLsbD_eq
    intro i hi
    rw [opcField, BitVec.getLsbD_extractLsb', hbit (by omega) (by omega), BitVec.getLsbD_append]
    simp [hi]
  · rw [h]
    apply BitVec.eq_of_getLsbD_eq
    intro i hi
    rw [BitVec.getLsbD_and, BitVec.getLsbD_append]
    split
    · interval_cases i <;> simp
    · simp

/-- With the unused fields clear, only a reserved `MODE` or `TAG` can make a word of a format illegal. -/
theorem formatIllegality_of_unused_clear {f : Format} {w : Word} (h : w &&& f.mask &&& 0x0000FF00#32 = 0#32) :
    formatIllegality f w = none ∨ formatIllegality f w = some .reservedMode ∨
      formatIllegality f w = some .reservedTag := by
  rw [formatIllegality, if_neg (not_not.2 h)]
  split_ifs
  exacts [.inr (.inl rfl), .inr (.inr rfl), .inl rfl]

/-- The word of a row decodes to a command of that row, or has a reserved `MODE` or `TAG`. -/
theorem decode_of_masked {w : Word} {i : Instr} (h : w &&& (formatOf i).mask = 0#24 ++ opcode i) :
    (∃ j, opcode j = opcode i ∧ decode w = .ok j) ∨ decode w = .error .reservedMode ∨
      decode w = .error .reservedTag := by
  obtain ⟨hz, hopc, hu⟩ := fields_of_masked h
  have hill : refusalOf (decode w) = formatIllegality (formatOf i) w := by
    rw [← illegality_eq_refusalOf_decode, illegality_of_lookup_some hz (by rw [hopc, lookup_opcode])]
  rcases formatIllegality_of_unused_clear hu with hn | hm | ht
  · obtain ⟨j, hj⟩ := refusalOf_eq_none (hill.trans hn)
    exact .inl ⟨j, by rw [← opcField_encode, encode_of_decode hj, hopc], hj⟩
  · exact .inr (.inl (refusalOf_eq_some (hill.trans hm)))
  · exact .inr (.inr (refusalOf_eq_some (hill.trans ht)))

/-! ### The obligations -/

/-- Settles O1: each direction is one of the two lemmas on R98. -/
theorem decodeInvertsEncode : Obligations.DecodeInvertsEncode :=
  fun _ i => ⟨encode_of_decode, fun h => h ▸ decode_encode i⟩

/-- Settles O3: the first clause by the five tests, the second because the word is the command's encoding. -/
theorem maskedMatchSelectsTheRow : Obligations.MaskedMatchSelectsTheRow := by
  refine fun w i => ⟨decode_of_masked, fun h => ?_⟩
  obtain ⟨_, hmask⟩ := encodingFields i
  rwa [encode_of_decode h] at hmask

/-- Settles O4: ten closed evaluations of the decoder. -/
theorem sampleWordsDecode : Obligations.SampleWordsDecode := by
  unfold Obligations.SampleWordsDecode
  decide

end Sys2Proof
end

section
/-! PROOFS. What every command keeps and what it depends on (`10_state.md` R21, R22, `60_exceptions.md` R294), and the
invariant through every step (R26, R61, R291, R323).

`exec_related` says once how a command runs from two states that agree on its inputs: it raises the same error in both,
or completes in both with the same results after the same stores, all inside the buffers. The relation between the
states is a parameter, so the lemma gives non-interference (R21), independence of the model's bookkeeping, and, for a
state related to itself, the invariant. -/

namespace Sys2Proof.Machine

/-! ### Raising an error (R294) -/

/-- `raise` leaves the state the statements call `failed`. -/
theorem State.raise_eq_failed (s : State) (k : ErrorKind) : s.raise k = s.failed (errorCode k) := by
  cases k <;> rfl

theorem errorCode_ne_zero (k : ErrorKind) : errorCode k ≠ 0#4 := by cases k <;> decide

theorem errorCode_le (k : ErrorKind) : (errorCode k).toNat ≤ 3 := by cases k <;> decide

/-! ### What a command's outcome says of the state it leaves -/

section
variable {s t : State}

/-- The two forms of the state a command leaves. -/
theorem IsCommandOutcome.next_iff : IsCommandOutcome s (.next t) ↔
    (∃ k, t = s.raise k) ∨ ∃ m r0 r1 r2 r3, t = ({ s with mem := m } : State).finish r0 r1 r2 r3 := by
  simp only [IsCommandOutcome, Host.Outcome.next.injEq]

theorem IsCommandOutcome.exists_next {o : Host.Outcome State Fault Refusal} (h : IsCommandOutcome s o) :
    ∃ t, o = .next t := by
  rcases h with ⟨k, rfl⟩ | ⟨m, r0, r1, r2, r3, rfl⟩
  exacts [⟨_, rfl⟩, ⟨_, rfl⟩]

theorem IsCommandOutcome.sameFixed (h : IsCommandOutcome s (.next t)) : s.SameFixed t := by
  rcases IsCommandOutcome.next_iff.1 h with ⟨k, rfl⟩ | ⟨m, r0, r1, r2, r3, rfl⟩
  · exact ⟨rfl, rfl, rfl, rfl, rfl, rfl, rfl, rfl, rfl⟩
  · exact ⟨rfl, rfl, rfl, rfl, rfl, rfl, rfl, rfl, rfl⟩

theorem IsCommandOutcome.cfg (h : IsCommandOutcome s (.next t)) : t.cfg = s.cfg := by
  obtain ⟨_, _, _, _, hcfg, _⟩ := h.sameFixed
  exact hcfg

/-- A command that has run has completed: `BUSY = 0`, `DONE = 1`, nothing pending, and a legal error code. -/
theorem IsCommandOutcome.completed (h : IsCommandOutcome s (.next t)) :
    t.busy = false ∧ t.done = true ∧ t.cmd = none ∧ t.err.toNat ≤ 3 := by
  rcases IsCommandOutcome.next_iff.1 h with ⟨k, rfl⟩ | ⟨m, r0, r1, r2, r3, rfl⟩
  · exact ⟨s.raise_busy k, s.raise_done k, rfl, by rw [State.raise_err]; exact errorCode_le k⟩
  · exact ⟨State.finish_busy _ .., State.finish_done _ .., rfl, by rw [State.finish_err]; decide⟩

/-- An error code other than 0 is that of a raised error, and a raised error writes what `failed` says. -/
theorem IsCommandOutcome.eq_failed (h : IsCommandOutcome s (.next t)) (he : t.err ≠ 0#4) : t = s.failed t.err := by
  rcases IsCommandOutcome.next_iff.1 h with ⟨k, rfl⟩ | ⟨m, r0, r1, r2, r3, rfl⟩
  · rw [State.raise_err, State.raise_eq_failed]
  · exact absurd (State.finish_err _ ..) he

end

theorem outcome_of_exec {i : Instr} {s t : State} (h : exec i s = .next t) : IsCommandOutcome s (.next t) :=
  h ▸ exec_outcome s i

/-! ### The turns of a step -/

theorem runCommand_of_decode {w : Word} {i : Instr} (h : decode w = .ok i) (s : State) :
    runCommand w s = exec i s := by
  rw [runCommand, h]

theorem runCommand_of_illegal {w : Word} {r : IllegalWord} (h : decode w = .error r) (s : State) :
    runCommand w s = .next (s.raise .illegalCommand) := by
  rw [runCommand, h]

theorem runCommand_outcome (w : Word) (s : State) : IsCommandOutcome s (runCommand w s) := by
  cases h : decode w with
  | ok i => rw [runCommand_of_decode h]; exact exec_outcome s i
  | error r => rw [runCommand_of_illegal h]; exact .raise s _

theorem engineTurn_of_pending {s : State} {w : Word} (h : s.cmd = some w) : engineTurn s = runCommand w s := by
  rw [engineTurn, h]

theorem engineTurn_of_idle {s : State} (h : s.cmd = none) : engineTurn s = .next s := by
  rw [engineTurn, h]

section
variable {s : State} {rest : List Turn}

theorem step_of_agenda_nil (h : s.agenda = []) : step s = engineTurn s := by rw [step, h]

theorem step_of_agenda_engine (h : s.agenda = .engine :: rest) : step s = engineTurn { s with agenda := rest } := by
  rw [step, h]

theorem step_of_agenda_host {a : Access} (h : s.agenda = .host a :: rest) :
    step s = hostAccess a { s with agenda := rest } := by
  rw [step, h]

theorem step_of_agenda_reset (h : s.agenda = .reset :: rest) :
    step s = .next (State.platformReset { s with agenda := rest }) := by
  rw [step, h]

end

/-- Everything an answered step can be: from the state `u` with the turn taken off the agenda, an idle ENGINE's turn, a
command, a HOST access, or a reset. -/
theorem step_next {s t : State} (h : step s = .next t) :
    ∃ (rest : List Turn) (u : State), u = { s with agenda := rest } ∧
      (t = u ∨ (∃ w, runCommand w u = .next t) ∨ (∃ a, hostAccess a u = .next t) ∨ t = u.platformReset) := by
  have engine {u : State} (hu : engineTurn u = .next t) : t = u ∨ ∃ w, runCommand w u = .next t := by
    cases hc : u.cmd with
    | none => rw [engineTurn_of_idle hc] at hu; exact .inl (Host.Outcome.next.inj hu).symm
    | some w => rw [engineTurn_of_pending hc] at hu; exact .inr ⟨w, hu⟩
  cases ha : s.agenda with
  | nil =>
    rw [step_of_agenda_nil ha] at h
    exact ⟨s.agenda, s, rfl, (engine h).imp id .inl⟩
  | cons turn rest =>
    refine ⟨rest, _, rfl, ?_⟩
    cases turn with
    | host a => rw [step_of_agenda_host ha] at h; exact .inr (.inr (.inl ⟨a, h⟩))
    | engine => rw [step_of_agenda_engine ha] at h; exact (engine h).imp id .inl
    | reset => rw [step_of_agenda_reset ha] at h; exact .inr (.inr (.inr (Host.Outcome.next.inj h).symm))

/-! ### What a command reads (R21) -/

namespace State.SameInputs

variable {s s' : State} (h : s.SameInputs s')
include h

theorem arg (i : Fin 4) : s.arg i = s'.arg i := by
  obtain ⟨h0, h1, h2, h3, _⟩ := h
  match i with
  | 0 => exact h0
  | 1 => exact h1
  | 2 => exact h2
  | 3 => exact h3

theorem argU (i : Fin 4) : s.argU i = s'.argU i := by rw [State.argU, h.arg, State.argU]

theorem argS (i : Fin 4) : s.argS i = s'.argS i := by rw [State.argS, h.arg, State.argS]

theorem argByte (i : Fin 4) (lo : Nat) : s.argByte i lo = s'.argByte i lo := by
  rw [State.argByte, h.arg, State.argByte]

theorem argNibble (i : Fin 4) (lo : Nat) : s.argNibble i lo = s'.argNibble i lo := by
  rw [State.argNibble, h.arg, State.argNibble]

theorem cfg : s.cfg = s'.cfg := by
  obtain ⟨_, _, _, _, hcfg, _⟩ := h
  exact hcfg

theorem byte {off : Nat} (hoff : inBuffer off = true) : s.byte off = s'.byte off := by
  obtain ⟨_, _, _, _, _, hbyte⟩ := h
  exact hbyte off hoff

theorem bytes {off n : Nat} (hin : ∀ i < n, inBuffer (off + i) = true) : s.bytes off n = s'.bytes off n :=
  State.bytes_congr fun i hi => h.byte (hin i hi)

theorem secRun {i n : Nat} (hin : i + n ≤ 2352) : s.secRun i n = s'.secRun i n :=
  h.bytes fun k hk => (inBuffer_iff _).2 (by simp only [secBase]; omega)

theorem subdRun {i n : Nat} (hin : i + n ≤ 96) : s.subdRun i n = s'.subdRun i n :=
  h.bytes fun k hk => (inBuffer_iff _).2 (by simp only [subdBase]; omega)

theorem subrAll : s.subrAll = s'.subrAll :=
  h.bytes fun k hk => (inBuffer_iff _).2 (by simp only [subrBase, subBytes] at *; omega)

theorem sec {i : Nat} (hi : i < 2352) : s.sec i = s'.sec i :=
  h.byte ((inBuffer_iff _).2 (by simp only [secBase]; omega))

theorem qb {i : Nat} (hi : i < 12) : s.qb i = s'.qb i :=
  h.byte ((inBuffer_iff _).2 (by simp only [subdBase, qAt]; omega))

theorem secWord {i : Nat} (hi : i + 4 ≤ 2352) : s.secWord i = s'.secWord i := by
  simp only [State.secWord]
  rw [h.sec (i := i) (by omega), h.sec (i := i + 1) (by omega), h.sec (i := i + 2) (by omega),
    h.sec (i := i + 3) (by omega)]

theorem sectorEdc {f : EdcField} (hf : f.first + f.count ≤ 2352) : sectorEdc f s = sectorEdc f s' := by
  rw [Machine.sectorEdc, h.secRun hf, Machine.sectorEdc]

theorem logicalBytes (mode : TrackMode) : logicalBytes mode s = logicalBytes mode s' := by
  rw [Machine.logicalBytes, h.secRun (by decide), Machine.logicalBytes]
  cases mode <;> simp only [eccAddress, h.secRun (i := 12) (n := 4) (by decide)]

theorem pField (mode : TrackMode) : pField mode s = pField mode s' := by
  rw [Machine.pField, h.logicalBytes, Machine.pField]

theorem qField (mode : TrackMode) : qField mode s = qField mode s' := by
  rw [Machine.qField, h.logicalBytes, Machine.qField]

theorem pMatches (mode : TrackMode) : pMatches mode s = pMatches mode s' := by
  rw [Machine.pMatches, h.pField, h.secRun (by decide), Machine.pMatches]

theorem qMatches (mode : TrackMode) : qMatches mode s = qMatches mode s' := by
  rw [Machine.qMatches, h.qField, h.secRun (by decide), Machine.qMatches]

theorem sectorClass : sectorClass s = sectorClass s' := by
  simp only [Machine.sectorClass, hasSync, h.secRun (i := 0) (n := 12) (by decide), h.sec (i := 15) (by decide),
    h.sec (i := 18) (by decide)]
  rfl

theorem checkSector : checkSector s = checkSector s' := by
  have hecc (mode : TrackMode) {f : EdcField} (hf : f.first + f.count ≤ 2352) (hs : f.stored + 4 ≤ 2352) :
      checkEcc mode f s = checkEcc mode f s' := by
    simp only [checkEcc, h.pMatches, h.qMatches, h.sectorEdc hf, h.secWord hs]
  have hform2 : checkForm2 edcFieldForm2 s = checkForm2 edcFieldForm2 s' := by
    simp only [checkForm2, h.sectorEdc (f := edcFieldForm2) (by decide),
      h.secWord (i := edcFieldForm2.stored) (by decide)]
  have hmode0 : checkMode0 s = checkMode0 s' := by
    simp only [checkMode0, h.secRun (i := 16) (n := 2336) (by decide)]
  simp only [Machine.checkSector, h.sectorClass, hmode0, hform2,
    hecc .cdMode1 (f := edcFieldMode1) (by decide) (by decide),
    hecc .cdMode2Form1 (f := edcFieldForm1) (by decide) (by decide)]

theorem qCrc : qCrc s = qCrc s' := by
  rw [Machine.qCrc, h.cfg, h.subdRun (by decide), Machine.qCrc]

theorem qStored : qStored s = qStored s' := by
  rw [Machine.qStored, h.qb (by decide), h.qb (by decide), Machine.qStored]

end State.SameInputs

/-! ### One command from two related states -/

/-- R126: the four bytes of an EDC field lie in the sector, after the bytes they cover. -/
theorem edcField_bounds {mode : TrackMode} {f : EdcField} (h : edcField mode = some f) :
    f.first + f.count ≤ f.stored ∧ f.stored + 4 ≤ 2352 := by
  cases mode <;> cases h <;> decide

/-- A relation that gives a command the same inputs and survives every store of the same bytes inside the buffers. -/
structure StoreStable (R : State → State → Prop) : Prop where
  inputs : ∀ {u u' : State}, R u u' → u.SameInputs u'
  store : ∀ {u u' : State} (off : Nat) (bs : List Byte), (∀ k, off ≤ k → k < off + bs.length → inBuffer k = true) →
    R u u' → R (u.store off bs) (u'.store off bs)

/-- The outcomes of a command run from `s` and from `s'`: the same error, or the same results after stores that keep the
relation. -/
def SameOutcome (R : State → State → Prop) (s s' : State) (o o' : Host.Outcome State Fault Refusal) : Prop :=
  (∃ k, o = .next (s.raise k) ∧ o' = .next (s'.raise k)) ∨
  ∃ m m' r0 r1 r2 r3, R { s with mem := m } { s' with mem := m' } ∧
    o = .next (({ s with mem := m } : State).finish r0 r1 r2 r3) ∧
    o' = .next (({ s' with mem := m' } : State).finish r0 r1 r2 r3)

section
variable {R : State → State → Prop} {s s' : State}

theorem SameOutcome.raise (k : ErrorKind) : SameOutcome R s s' (.next (s.raise k)) (.next (s'.raise k)) :=
  .inl ⟨k, rfl, rfl⟩

theorem SameOutcome.finish {u u' : State} (hu : u = { s with mem := u.mem }) (hu' : u' = { s' with mem := u'.mem })
    (h : R u u') (r0 r1 r2 r3 : Word) :
    SameOutcome R s s' (.next (u.finish r0 r1 r2 r3)) (.next (u'.finish r0 r1 r2 r3)) :=
  .inr ⟨u.mem, u'.mem, r0, r1, r2, r3, by rwa [← hu, ← hu'], by rw [← hu], by rw [← hu']⟩

theorem SameOutcome.ite {c : Prop} [Decidable c] {o1 o2 o1' o2' : Host.Outcome State Fault Refusal}
    (h1 : c → SameOutcome R s s' o1 o1') (h2 : ¬c → SameOutcome R s s' o2 o2') :
    SameOutcome R s s' (if c then o1 else o2) (if c then o1' else o2') := by
  by_cases hc : c
  · simpa only [if_pos hc] using h1 hc
  · simpa only [if_neg hc] using h2 hc

variable (hR : StoreStable R)
include hR

theorem StoreStable.storeSec {u u' : State} (i : Nat) (bs : List Byte) (hin : i + bs.length ≤ 2352) (h : R u u') :
    R (u.storeSec i bs) (u'.storeSec i bs) :=
  hR.store _ _ (fun k h1 h2 => (inBuffer_iff k).2 (by simp only [secBase] at h1 h2; omega)) h

theorem StoreStable.storeSubd {u u' : State} (i : Nat) (bs : List Byte) (hin : i + bs.length ≤ 96) (h : R u u') :
    R (u.storeSubd i bs) (u'.storeSubd i bs) :=
  hR.store _ _ (fun k h1 h2 => (inBuffer_iff k).2 (by simp only [subdBase] at h1 h2; omega)) h

theorem StoreStable.storeSubr {u u' : State} (bs : List Byte) (hin : bs.length ≤ 96) (h : R u u') :
    R (u.storeSubr bs) (u'.storeSubr bs) :=
  hR.store _ _ (fun k h1 h2 => (inBuffer_iff k).2 (by simp only [subrBase] at h1 h2; omega)) h

/-! SEC.BUILD, step by step (R250). -/

theorem buildPrefix_related (mode : TrackMode) (n : Nat) (h : R s s') :
    R (buildPrefix mode n s) (buildPrefix mode n s') :=
  hR.storeSec 0 _ (by simp) h

theorem buildSubHeader_related (mode : TrackMode) (h : R s s') :
    R (buildSubHeader mode s) (buildSubHeader mode s') := by
  have hin := hR.inputs h
  have hdup : R (duplicateSubHeader s) (duplicateSubHeader s') := by
    rw [duplicateSubHeader, duplicateSubHeader, hin.cfg, hin.secRun (by decide), hin.secRun (by decide)]
    cases s'.cfg.subhdrDup with
    | secondToFirst => exact hR.storeSec _ _ (by simp) h
    | firstToSecond => exact hR.storeSec _ _ (by simp) h
  cases mode with
  | cdMode2Form1 | cdMode2Form2 => exact hdup
  | audio | cdMode1 | cdMode2Formless => exact h

theorem buildEdc_related (mode : TrackMode) (h : R s s') : R (buildEdc mode s) (buildEdc mode s') := by
  rw [buildEdc, buildEdc]
  cases hf : edcField mode with
  | none => exact h
  | some f =>
    obtain ⟨hcov, hst⟩ := edcField_bounds hf
    dsimp only
    rw [(hR.inputs h).sectorEdc (by omega)]
    have hstored := hR.storeSec f.stored (leBytes (sectorEdc f s')) (by simp [hst]) h
    split
    · exact hR.storeSec _ _ (by decide) hstored
    · exact hstored

theorem buildEcc_related (mode : TrackMode) (h : R s s') : R (buildEcc mode s) (buildEcc mode s') := by
  rw [buildEcc, buildEcc]
  split
  · dsimp only
    have hp : R (s.storeSec pFieldAt (pField mode s)) (s'.storeSec pFieldAt (pField mode s')) := by
      rw [(hR.inputs h).pField]
      exact hR.storeSec _ _ (by simp [pFieldAt]) h
    rw [(hR.inputs hp).qField]
    exact hR.storeSec _ _ (by simp [qFieldAt]) hp
  · exact h

theorem buildSector_related (mode : TrackMode) (n : Nat) (h : R s s') :
    R (buildSector mode n s) (buildSector mode n s') :=
  buildEcc_related hR mode (buildEdc_related hR mode (buildSubHeader_related hR mode (buildPrefix_related hR mode n h)))

/-- R21, said once for every command: related states have related outcomes. -/
theorem exec_related (i : Instr) (h : R s s') : SameOutcome R s s' (exec i s) (exec i s') := by
  have hin := hR.inputs h
  have hedc {mode : TrackMode} {f : EdcField} (hf : edcField mode = some f) : sectorEdc f s = sectorEdc f s' := by
    obtain ⟨hcov, hst⟩ := edcField_bounds hf
    exact hin.sectorEdc (by omega)
  cases i with
  | nop => exact .finish rfl rfl h _ _ _ _
  | crc16 =>
    rw [exec, exec, execCrc16, execCrc16, hin.argU, hin.argU, hin.cfg]
    refine .ite (fun _ => .raise _) fun hc => ?_
    rw [hin.subdRun (by simp only [subBytes] at hc; omega)]
    exact .finish rfl rfl h _ _ _ _
  | edc =>
    rw [exec, exec, execEdc, execEdc, hin.argU, hin.argU, hin.arg]
    refine .ite (fun _ => .raise _) fun hc => ?_
    rw [hin.secRun (by simp only [sectorBytes] at hc; omega)]
    exact .finish rfl rfl h _ _ _ _
  | edcGen mode =>
    rw [exec, exec, execEdcGen, execEdcGen]
    cases hf : edcField mode with
    | none => exact .raise _
    | some f =>
      dsimp only
      rw [hedc hf]
      exact .finish rfl rfl (hR.storeSec _ _ (edcField_bounds hf).2 h) _ _ _ _
  | edcChk mode =>
    rw [exec, exec, execEdcChk, execEdcChk]
    cases hf : edcField mode with
    | none => exact .raise _
    | some f =>
      dsimp only
      rw [hedc hf, hin.secWord (edcField_bounds hf).2]
      exact .finish rfl rfl h _ _ _ _
  | eccpGen mode =>
    rw [exec, exec, execEccpGen, execEccpGen, hin.pField]
    exact .ite (fun _ => .finish rfl rfl (hR.storeSec _ _ (by simp [pFieldAt]) h) _ _ _ _) fun _ => .raise _
  | eccqGen mode =>
    rw [exec, exec, execEccqGen, execEccqGen, hin.qField]
    exact .ite (fun _ => .finish rfl rfl (hR.storeSec _ _ (by simp [qFieldAt]) h) _ _ _ _) fun _ => .raise _
  | eccpChk mode =>
    rw [exec, exec, execEccpChk, execEccpChk, hin.pMatches]
    exact .ite (fun _ => .finish rfl rfl h _ _ _ _) fun _ => .raise _
  | eccqChk mode =>
    rw [exec, exec, execEccqChk, execEccqChk, hin.qMatches]
    exact .ite (fun _ => .finish rfl rfl h _ _ _ _) fun _ => .raise _
  | subDeint =>
    rw [exec, exec, execSubDeint, execSubDeint, hin.subrAll]
    exact .finish rfl rfl (hR.storeSubd 0 _ (by simp) h) _ _ _ _
  | subInt =>
    rw [exec, exec, execSubInt, execSubInt, hin.subdRun (by decide)]
    exact .finish rfl rfl (hR.storeSubr _ (by simp) h) _ _ _ _
  | qParse bcd =>
    rw [exec, exec, execQParse, execQParse, hin.argS, hin.qCrc, hin.qStored]
    simp only [hin.qb (i := 0) (by decide), hin.qb (i := 1) (by decide), hin.qb (i := 2) (by decide),
      hin.qb (i := 3) (by decide), hin.qb (i := 4) (by decide), hin.qb (i := 5) (by decide),
      hin.qb (i := 6) (by decide), hin.qb (i := 7) (by decide), hin.qb (i := 8) (by decide),
      hin.qb (i := 9) (by decide)]
    exact .finish rfl rfl h _ _ _ _
  | qBuild =>
    rw [exec, exec, execQBuild, execQBuild, hin.argS, hin.argU, hin.argByte, hin.argByte, hin.argNibble, hin.cfg]
    exact .ite (fun _ => .finish rfl rfl (hR.storeSubd qAt _ (by simp [qAt]) h) _ _ _ _) fun _ => .raise _
  | subGen =>
    rw [exec, exec, execSubGen, execSubGen, hin.argS, hin.argS, hin.argU, hin.argByte, hin.argByte, hin.argNibble,
      hin.cfg]
    refine .ite (fun _ => ?_) fun _ => .raise _
    exact .finish rfl rfl (hR.storeSubr _ (by simp) (hR.storeSubd 0 _ (by simp) h)) _ _ _ _
  | bcd2bin =>
    rw [exec, exec, execBcd2bin, execBcd2bin, hin.argByte]
    exact .finish rfl rfl h _ _ _ _
  | bin2bcd =>
    rw [exec, exec, execBin2bcd, execBin2bcd, hin.argU]
    exact .ite (fun _ => .raise _) fun _ => .finish rfl rfl h _ _ _ _
  | lba2msf =>
    rw [exec, exec, execLba2msf, execLba2msf, hin.argS]
    exact .ite (fun _ => .finish rfl rfl h _ _ _ _) fun _ => .raise _
  | msf2lba =>
    rw [exec, exec, execMsf2lba, execMsf2lba, hin.argByte, hin.argByte, hin.argByte]
    exact .finish rfl rfl h _ _ _ _
  | secCheck =>
    rw [exec, exec, execSecCheck, execSecCheck, hin.checkSector, hin.sectorClass]
    cases checkSector s' with
    | none => exact .raise _
    | some r => exact .finish rfl rfl h _ _ _ _
  | secBuild mode =>
    rw [exec, exec, execSecBuild, execSecBuild, hin.argS]
    refine .ite (fun _ => .raise _) fun _ => .ite (fun _ => ?_) fun _ => .raise _
    have hmem (u : State) : buildSector mode (framesOf (s'.argS 0)).toNat u =
        { u with mem := (buildSector mode (framesOf (s'.argS 0)).toNat u).mem } := by
      obtain ⟨m, hm⟩ := buildSector_mem u mode (framesOf (s'.argS 0)).toNat
      rw [hm]
    exact .finish (hmem s) (hmem s') (buildSector_related hR mode _ h) _ _ _ _
  | layout mode tag =>
    rw [exec, exec, execLayout, execLayout]
    cases fieldLayout mode tag with
    | none => exact .raise _
    | some e => exact .finish rfl rfl h _ _ _ _

end

/-! ### The invariant -/

/-- A state related to itself while it meets the invariant. -/
theorem storeStable_inv : StoreStable fun u u' => u = u' ∧ u.inv = true where
  inputs := by
    rintro u _ ⟨rfl, _⟩
    exact ⟨rfl, rfl, rfl, rfl, rfl, fun _ _ => rfl⟩
  store := by
    rintro u _ off bs hin ⟨rfl, hinv⟩
    exact ⟨rfl, State.inv_store u hinv hin⟩

theorem exec_inv {i : Instr} {s t : State} (hs : s.inv = true) (h : exec i s = .next t) : t.inv = true := by
  rcases exec_related storeStable_inv i ⟨rfl, hs⟩ with ⟨k, ho, _⟩ | ⟨m, m', r0, r1, r2, r3, ⟨_, hm⟩, ho, _⟩
  · rw [← Host.Outcome.next.inj (ho.symm.trans h)]
    exact State.inv_raise s hs k
  · rw [← Host.Outcome.next.inj (ho.symm.trans h)]
    exact State.inv_finish _ hm ..

theorem runCommand_inv {w : Word} {s t : State} (hs : s.inv = true) (h : runCommand w s = .next t) : t.inv = true := by
  cases hd : decode w with
  | ok i => exact exec_inv hs ((runCommand_of_decode hd s).symm.trans h)
  | error r =>
    rw [← Host.Outcome.next.inj ((runCommand_of_illegal hd s).symm.trans h)]
    exact State.inv_raise s hs _

theorem State.inv_setArg (s : State) (i : Fin 4) (v : Word) : (s.setArg i v).inv = s.inv := by
  match i with
  | 0 | 1 | 2 | 3 => rfl

theorem State.inv_writeReg {s : State} (hs : s.inv = true) (r : Reg) (v : Word) : (s.writeReg r v).inv = true := by
  cases r with
  | cmd => exact State.inv_start s hs v
  | arg i => exact (State.inv_setArg s i v).trans hs
  | status | res _ => exact hs

theorem hostAccess_inv {a : Access} {s t : State} (hs : s.inv = true) (h : hostAccess a s = .next t) :
    t.inv = true := by
  rcases hostAccess_next h with ⟨_, r, _, _, _, rfl⟩ | ⟨_, r, v, _, _, _, rfl⟩ | ⟨_, _, _, _, rfl⟩ |
    ⟨addr, v, _, hin, _, rfl⟩
  · exact State.inv_readReg s hs r
  · exact State.inv_writeReg hs r v
  · exact State.inv_noteRead s hs _
  · refine State.inv_store s hs fun k h1 h2 => ?_
    rw [List.length_singleton] at h2
    rwa [show k = addr - s.cfg.base by omega]

/-! ### The configuration -/

theorem State.readReg_cfg (s : State) (r : Reg) : (s.readReg r).cfg = s.cfg := by cases r <;> rfl

theorem State.writeReg_cfg (s : State) (r : Reg) (v : Word) : (s.writeReg r v).cfg = s.cfg := by
  cases r with
  | arg i =>
    match i with
    | 0 | 1 | 2 | 3 => rfl
  | cmd | status | res _ => rfl

theorem hostAccess_cfg {a : Access} {s t : State} (h : hostAccess a s = .next t) : t.cfg = s.cfg := by
  rcases hostAccess_next h with ⟨_, r, _, _, _, rfl⟩ | ⟨_, r, v, _, _, _, rfl⟩ | ⟨_, _, _, _, rfl⟩ |
    ⟨_, _, _, _, _, rfl⟩
  exacts [s.readReg_cfg r, s.writeReg_cfg r v, rfl, rfl]

/-! ### Equal inputs give equal results (R21) -/

theorem storeStable_sameInputs : StoreStable State.SameInputs where
  inputs h := h
  store := by
    rintro u u' off bs _ ⟨h0, h1, h2, h3, hcfg, hbyte⟩
    refine ⟨h0, h1, h2, h3, hcfg, fun k hk => ?_⟩
    rw [State.store_byte, State.store_byte, hbyte k hk]

/-! ### A command does not see the model's bookkeeping -/

theorem storeStable_sameMem : StoreStable fun u u' => u.SameInputs u' ∧ u.mem = u'.mem where
  inputs h := h.1
  store off bs hin h := ⟨storeStable_sameInputs.store off bs hin h.1, congrArg (·.splice off bs) h.2⟩

/-- The agenda, the HOST's record and wait, `STATUS` and `CMD` do not change what a command does; it leaves the first
three as they are. -/
theorem exec_bookkeeping {i : Instr} {s t : State} (h : exec i s = .next t) (st : Word) (c : Option Word)
    (ag : List Turn) (sn : List Word) (up : Bool) :
    exec i { s with status := st, cmd := c, agenda := ag, seen := sn, unpolled := up } =
      .next { t with agenda := ag, seen := sn, unpolled := up } := by
  have hrel : s.SameInputs { s with status := st, cmd := c, agenda := ag, seen := sn, unpolled := up } ∧
      s.mem = s.mem := ⟨⟨rfl, rfl, rfl, rfl, rfl, fun _ _ => rfl⟩, rfl⟩
  rcases exec_related storeStable_sameMem i hrel with ⟨k, ho, ho'⟩ | ⟨m, m', r0, r1, r2, r3, ⟨_, hm⟩, ho, ho'⟩
  · rw [ho', ← Host.Outcome.next.inj (ho.symm.trans h)]
    rfl
  · obtain rfl : m = m' := hm
    rw [ho', ← Host.Outcome.next.inj (ho.symm.trans h)]
    rfl

end Sys2Proof.Machine

namespace Sys2Proof

open Machine

/-! ### The obligations -/

/-- Settles O9: by the turn taken; a command keeps the invariant because all its stores lie in the buffers. -/
theorem stepKeepsTheInvariant : Obligations.StepKeepsTheInvariant := by
  intro s t hs h
  obtain ⟨rest, u, rfl, hturn⟩ := step_next h
  have hu : ({ s with agenda := rest } : State).inv = true := hs
  rcases hturn with rfl | ⟨w, hw⟩ | ⟨a, ha⟩ | rfl
  exacts [hu, runCommand_inv hu hw, hostAccess_inv hu ha, State.inv_platformReset _]

/-- Settles O10: the reset state is idle with an empty byte store. -/
theorem resetMeetsTheInvariant : Obligations.ResetMeetsTheInvariant := rfl

/-- Settles O12: by the turn taken. -/
theorem configurationNeverChanges : Obligations.ConfigurationNeverChanges := by
  intro s t h
  obtain ⟨rest, u, rfl, hturn⟩ := step_next h
  have hu : ({ s with agenda := rest } : State).cfg = s.cfg := rfl
  rcases hturn with rfl | ⟨w, hw⟩ | ⟨a, ha⟩ | rfl
  · rfl
  · exact (hw ▸ runCommand_outcome w _ : IsCommandOutcome { s with agenda := rest } (.next t)).cfg.trans hu
  · exact (hostAccess_cfg ha).trans hu
  · rfl

/-- Settles O13: both forms of a command's outcome keep these fields. -/
theorem commandsKeepArguments : Obligations.CommandsKeepArguments :=
  fun _ _ _ h => (outcome_of_exec h).sameFixed

/-- Settles O14: every command and every word has a command's outcome, and such an outcome is a completion. -/
theorem everyCommandCompletes : Obligations.EveryCommandCompletes := by
  refine ⟨fun i s => ?_, fun s w hag => ?_⟩
  · obtain ⟨t, ht⟩ := (exec_outcome s i).exists_next
    exact ⟨t, ht, (outcome_of_exec ht).completed⟩
  · have hout := runCommand_outcome w (s.start w)
    obtain ⟨t, ht⟩ := hout.exists_next
    have hstep : step (s.start w) = .next t := by
      rw [step_of_agenda_nil (s := s.start w) hag, engineTurn_of_pending (s := s.start w) rfl, ht]
    obtain ⟨hbusy, hdone, _⟩ := (ht ▸ hout : IsCommandOutcome _ (.next t)).completed
    exact ⟨t, hstep, hbusy, hdone⟩

/-- Settles O15: a nonzero error code is that of a raised error. -/
theorem failedCommandWritesNothingElse : Obligations.FailedCommandWritesNothingElse :=
  fun _ _ _ h he => (outcome_of_exec h).eq_failed he

/-- Settles O16: states with equal inputs have related outcomes, and those agree on `RES`, `STATUS` and the buffers. -/
theorem resultsDependOnInputsAlone : Obligations.ResultsDependOnInputsAlone := by
  intro i s s' t t' hin ht ht'
  rcases exec_related storeStable_sameInputs i hin with ⟨k, ho, ho'⟩ | ⟨m, m', r0, r1, r2, r3, hm, ho, ho'⟩
  · rw [← Host.Outcome.next.inj (ho.symm.trans ht), ← Host.Outcome.next.inj (ho'.symm.trans ht')]
    exact ⟨rfl, rfl, rfl, rfl, rfl, fun _ hoff => hin.byte hoff⟩
  · rw [← Host.Outcome.next.inj (ho.symm.trans ht), ← Host.Outcome.next.inj (ho'.symm.trans ht')]
    exact ⟨rfl, rfl, rfl, rfl, rfl, fun _ hoff => hm.byte hoff⟩

end Sys2Proof
end

section
/-! PROOFS. The turns of the agenda: the ENGINE's turn (`30_encoding.md` R97, R101), the HOST's accesses
(`20_memory.md` R60 to R65, `70_reset_and_hazards.md` R323), reset (R320), and a whole command line (R99, R326).

`hostAccess` asks three questions in turn: is the address in the window, must the HOST wait, and what stands at the
offset. There is one lemma per answer, and each statement about an access cites the one for its case. -/

namespace Sys2Proof.Machine

/-! ### What stands at an offset (R61) -/

/-- R63: the registers are exactly the aligned offsets below 0x28. -/
theorem regAt_isSome_iff (off : Nat) : (regAt off).isSome = true ↔ off < 0x28 ∧ off % 4 = 0 := by
  by_cases h : off < 0x28
  · interval_cases off <;> decide
  · have hnone : regAt off = none := by
      unfold regAt
      split
      case h_11 => rfl
      all_goals omega
    simp [hnone, h]

theorem regAt_eq_none {off : Nat} (h : off % 4 ≠ 0) : regAt off = none := by
  rw [← Option.not_isSome_iff_eq_none, regAt_isSome_iff]
  exact fun hr => h hr.2

theorem lt_of_regAt {off : Nat} {r : Reg} (h : regAt off = some r) : off < 0x28 :=
  ((regAt_isSome_iff off).1 (Option.isSome_of_eq_some h)).1

/-- No buffer byte stands at a register's offset. -/
theorem registersEnd_le_of_inBuffer {off : Nat} (h : inBuffer off = true) : ¬ off < registersEnd := by
  rw [inBuffer_iff] at h
  simp only [registersEnd]
  omega

/-- R61: every buffer lies in the window. -/
theorem lt_windowBytes_of_inBuffer {off : Nat} (h : inBuffer off = true) : off < windowBytes := by
  rw [inBuffer_iff] at h
  simp only [windowBytes]
  omega

/-! ### The cases of a window access -/

section
variable {off : Nat} {a : Access} {s : State}

theorem windowAccess_of_reg {r : Reg} (h : regAt off = some r) : windowAccess off a s = regAccess r a s := by
  rw [windowAccess, if_pos (show off < registersEnd from lt_of_regAt h), h]

theorem windowAccess_of_misaligned (hoff : off < 0x28) (h : off % 4 ≠ 0) :
    windowAccess off a s = .refused (.badAccess a.addr) := by
  rw [windowAccess, if_pos (show off < registersEnd from hoff), regAt_eq_none h]

theorem windowAccess_of_inBuffer (h : inBuffer off = true) : windowAccess off a s = bufferAccess off a s := by
  rw [windowAccess, if_neg (registersEnd_le_of_inBuffer h), if_pos h]

theorem windowAccess_of_hole (hoff : 0x28 ≤ off) (h : inBuffer off = false) :
    windowAccess off a s = .refused (.hole a.addr) := by
  rw [windowAccess, if_neg (show ¬ off < registersEnd from Nat.not_lt.2 hoff), h]
  rfl

theorem regAccess_of_bad_width {r : Reg} (h : a.width ≠ .word) : regAccess r a s = .refused (.badAccess a.addr) := by
  cases a with
  | read w addr | write w addr v =>
    cases w with
    | byte | half => rfl
    | word => exact absurd rfl h

theorem bufferAccess_of_bad_width (h : a.width ≠ .byte) : bufferAccess off a s = .refused (.badAccess a.addr) := by
  cases a with
  | read w addr | write w addr v =>
    cases w with
    | half | word => rfl
    | byte => exact absurd rfl h

theorem regAccess_next {r : Reg} (h : a.width = .word) : ∃ t, regAccess r a s = .next t := by
  cases a with
  | read w addr | write w addr v =>
    obtain rfl : w = .word := h
    exact ⟨_, rfl⟩

theorem bufferAccess_next (h : a.width = .byte) : ∃ t, bufferAccess off a s = .next t := by
  cases a with
  | read w addr | write w addr v =>
    obtain rfl : w = .byte := h
    exact ⟨_, rfl⟩

/-- R61 to R63: the accesses that something in the window answers. -/
theorem windowAccess_next_iff : (∃ t, windowAccess off a s = .next t) ↔
    if off < 0x28 then off % 4 = 0 ∧ a.width = .word else inBuffer off = true ∧ a.width = .byte := by
  split
  · rename_i hoff
    by_cases halign : off % 4 = 0
    · obtain ⟨r, hr⟩ := Option.isSome_iff_exists.1 ((regAt_isSome_iff off).2 ⟨hoff, halign⟩)
      rw [windowAccess_of_reg hr]
      by_cases hw : a.width = .word
      · simp only [halign, hw, regAccess_next hw, and_self]
      · simp [regAccess_of_bad_width hw, hw]
    · simp [windowAccess_of_misaligned hoff halign, halign]
  · rename_i hoff
    cases hin : inBuffer off with
    | true =>
      rw [windowAccess_of_inBuffer hin]
      by_cases hw : a.width = .byte
      · simp only [hw, bufferAccess_next hw, and_self]
      · simp [bufferAccess_of_bad_width hw, hw]
    | false => simp [windowAccess_of_hole (Nat.not_lt.1 hoff) hin]

end

/-! ### The cases of a HOST access -/

section
variable {a : Access} {s : State}

/-- R323: the access a waiting HOST may make. -/
theorem isStatusPoll_iff (base : Nat) (a : Access) :
    isStatusPoll base a = true ↔ a = .read .word (base + 0x04) := by
  cases a with
  | read w addr => cases w <;> simp [isStatusPoll]
  | write w addr v => simp [isStatusPoll]

theorem hostAccess_of_outside (h : a.addr < s.cfg.base ∨ s.cfg.base + 0x3000 ≤ a.addr) :
    hostAccess a s = .fault (.outsideWindow a.addr) := by
  rw [hostAccess, windowBytes, if_pos h]

theorem hostAccess_of_held (hlo : s.cfg.base ≤ a.addr) (hhi : a.addr < s.cfg.base + 0x3000) (hheld : s.held = true)
    (hpoll : isStatusPoll s.cfg.base a = false) : hostAccess a s = .refused (.busy a.addr) := by
  rw [hostAccess, windowBytes, if_neg (by omega), if_pos ⟨hheld, hpoll⟩]

theorem hostAccess_of_ready (hlo : s.cfg.base ≤ a.addr) (hhi : a.addr < s.cfg.base + 0x3000)
    (hready : s.held = false ∨ isStatusPoll s.cfg.base a = true) :
    hostAccess a s = windowAccess (a.addr - s.cfg.base) a s := by
  have hnot : ¬ (s.held = true ∧ isStatusPoll s.cfg.base a = false) := by
    rintro ⟨hheld, hpoll⟩
    rcases hready with h | h
    · exact Bool.false_ne_true (h.symm.trans hheld)
    · exact Bool.false_ne_true (hpoll.symm.trans h)
  rw [hostAccess, windowBytes, if_neg (by omega), if_neg hnot]

/-- R60 to R63, R323: an access is answered exactly when the spec gives it a meaning. -/
theorem hostAccess_next_iff : (∃ t, hostAccess a s = .next t) ↔ accessAllowed a s = true := by
  have hallowed : accessAllowed a s = true ↔ (s.cfg.base ≤ a.addr ∧ a.addr < s.cfg.base + 0x3000) ∧
      (s.held = false ∨ isStatusPoll s.cfg.base a = true) ∧ ∃ t, windowAccess (a.addr - s.cfg.base) a s = .next t := by
    rw [windowAccess_next_iff, accessAllowed, ← State.held]
    split <;> simp [and_assoc]
  rw [hallowed]
  by_cases hwin : s.cfg.base ≤ a.addr ∧ a.addr < s.cfg.base + 0x3000
  · by_cases hready : s.held = false ∨ isStatusPoll s.cfg.base a = true
    · simp only [hostAccess_of_ready hwin.1 hwin.2 hready, hwin, hready, and_self, true_and]
    · obtain ⟨hheld, hpoll⟩ := not_or.1 hready
      rw [hostAccess_of_held hwin.1 hwin.2 (Bool.eq_true_of_not_eq_false hheld) (Bool.eq_false_of_not_eq_true hpoll)]
      simp [hready]
  · rw [hostAccess_of_outside (by omega)]
    simp [hwin]

end

/-! ### An idle block whose last command has been polled -/

section
variable {s : State} {off : Nat}

/-- Such a block takes an access at an offset of the window to what stands there. -/
theorem hostAccess_of_offset {a : Access} (hready : s.held = false) (haddr : a.addr = s.cfg.base + off)
    (hoff : off < 0x3000) : hostAccess a s = windowAccess off a s := by
  rw [hostAccess_of_ready (by omega) (by omega) (.inl hready), haddr, Nat.add_sub_cancel_left]

theorem hostAccess_read_reg {r : Reg} (hready : s.held = false) (hr : regAt off = some r) :
    hostAccess (.read .word (s.cfg.base + off)) s = .next (s.noteRead (s.regValue r)) := by
  have hoff := lt_of_regAt hr
  rw [hostAccess_of_offset hready rfl (by omega), windowAccess_of_reg hr, regAccess,
    State.readReg_of_not_held s hready]

theorem hostAccess_write_reg {r : Reg} (hready : s.held = false) (hr : regAt off = some r) (v : Word) :
    hostAccess (.write .word (s.cfg.base + off) v) s = .next (s.writeReg r v) := by
  have hoff := lt_of_regAt hr
  rw [hostAccess_of_offset hready rfl (by omega), windowAccess_of_reg hr, regAccess]

theorem hostAccess_read_byte (hready : s.held = false) (hin : inBuffer off = true) :
    hostAccess (.read .byte (s.cfg.base + off)) s = .next (s.noteRead (0#24 ++ s.byte off)) := by
  rw [hostAccess_of_offset hready rfl (lt_windowBytes_of_inBuffer hin), windowAccess_of_inBuffer hin, bufferAccess]

theorem hostAccess_write_byte (hready : s.held = false) (hin : inBuffer off = true) (v : Word) :
    hostAccess (.write .byte (s.cfg.base + off) v) s = .next (s.store off [v.extractLsb' 0 8]) := by
  rw [hostAccess_of_offset hready rfl (lt_windowBytes_of_inBuffer hin), windowAccess_of_inBuffer hin, bufferAccess]

end

/-- R323: a 32-bit read of `STATUS` is answered in every state, records its value, and ends the wait if it returns
`BUSY = 0`. -/
theorem hostAccess_poll (s : State) : hostAccess (.read .word (s.cfg.base + 0x04)) s =
    .next { s with seen := s.status :: s.seen, unpolled := s.unpolled && s.busy } := by
  have haddr : (Access.read .word (s.cfg.base + 0x04)).addr = s.cfg.base + 0x04 := rfl
  rw [hostAccess_of_ready (by omega) (by omega) (.inr ((isStatusPoll_iff _ _).2 rfl)), haddr, Nat.add_sub_cancel_left,
    windowAccess_of_reg (r := .status) rfl]
  rfl

/-! ### A command line (R99) -/

theorem core_run_succ {M : Host.Core} {s t : M.State} (h : M.step s = .next t) (k : Nat) :
    M.run (k + 1) s = M.run k t := by
  rw [Host.Core.run, h]

theorem run_succ {s t : State} (h : step s = .next t) (k : Nat) :
    Sys2Proof.core.run (k + 1) s = Sys2Proof.core.run k t :=
  core_run_succ (M := Sys2Proof.core) h k

/-- R99: the write of `CMD` that starts a command line. -/
theorem step_wr_cmd {s : State} {w : Word} {rest : List Turn} (hready : s.held = false)
    (hag : s.agenda = wr s.cfg.base 0x00 w :: rest) : step s = .next { s.start w with agenda := rest } := by
  rw [step_of_agenda_host hag]
  exact hostAccess_write_reg (s := { s with agenda := rest }) (r := .cmd) hready rfl w

theorem step_pollStatus {s : State} {rest : List Turn} (hag : s.agenda = pollStatus s.cfg.base :: rest) :
    step s = .next { s with agenda := rest, seen := s.status :: s.seen, unpolled := s.unpolled && s.busy } := by
  rw [step_of_agenda_host hag]
  exact hostAccess_poll { s with agenda := rest }

/-- R326: the polls of a running command read `STATUS` and change nothing else, however many there are. -/
theorem run_polls {s : State} (hbusy : s.busy = true) (n k : Nat) (rest : List Turn)
    (hag : s.agenda = List.replicate n (pollStatus s.cfg.base) ++ rest) :
    Sys2Proof.core.run (n + k) s =
      Sys2Proof.core.run k { s with agenda := rest, seen := List.replicate n s.status ++ s.seen } := by
  induction n generalizing s with
  | zero =>
    have hrest : s.agenda = rest := hag
    rw [Nat.zero_add, ← hrest]
    rfl
  | succ n ih =>
    have hstep := step_pollStatus (s := s) (rest := List.replicate n (pollStatus s.cfg.base) ++ rest) hag
    rw [hbusy, Bool.and_true] at hstep
    have hseen : List.replicate n s.status ++ s.status :: s.seen = List.replicate (n + 1) s.status ++ s.seen := by
      rw [List.replicate_succ', List.append_assoc]
      rfl
    rw [show n + 1 + k = n + k + 1 by omega]
    calc Sys2Proof.core.run (n + k + 1) s
        = Sys2Proof.core.run (n + k) _ := run_succ hstep (n + k)
      _ = Sys2Proof.core.run k { s with
            agenda := rest, seen := List.replicate n s.status ++ s.status :: s.seen } := ih hbusy rfl
      _ = _ := congrArg (fun l => Sys2Proof.core.run k { s with agenda := rest, seen := l }) hseen

end Sys2Proof.Machine

namespace Sys2Proof

open Machine

/-! ### The obligations -/

/-- Settles O5: both agendas give the ENGINE the turn, and it runs the decoded command. -/
theorem stepRunsTheDecodedCommand : Obligations.StepRunsTheDecodedCommand := by
  refine fun s w i hcmd hd => ⟨fun hag => ?_, fun rest hag => ?_⟩
  · rw [step_of_agenda_nil hag, engineTurn_of_pending hcmd, runCommand_of_decode hd]
  · rw [step_of_agenda_engine hag, engineTurn_of_pending (s := { s with agenda := rest }) hcmd, runCommand_of_decode hd]

/-- Settles O6: the decoder refuses the words that fail a test, and the ENGINE then raises `IllegalCommand`. -/
theorem illegalWordRaises : Obligations.IllegalWordRaises := by
  intro s w r hcmd hill
  have hd : decode w = .error r := refusalOf_eq_some ((illegality_eq_refusalOf_decode w).symm.trans hill)
  refine ⟨fun hag => ?_, fun rest hag => ?_⟩
  · rw [step_of_agenda_nil hag, engineTurn_of_pending hcmd, runCommand_of_illegal hd, State.raise_eq_failed]
    rfl
  · rw [step_of_agenda_engine hag, engineTurn_of_pending (s := { s with agenda := rest }) hcmd,
      runCommand_of_illegal hd, State.raise_eq_failed]
    rfl

/-- Settles O7: the loader's word is the encoded one, and the ENGINE has the next turn under either agenda. -/
theorem fetchWordRunsTheCommand : Obligations.FetchWordRunsTheCommand := by
  intro s i
  have hw : BitVec.ofNat 32 ((encode i).toNat % 2 ^ 32) = encode i := by
    rw [Nat.mod_eq_of_lt (encode i).isLt, BitVec.ofNat_toNat, BitVec.setWidth_eq]
  rw [State.withFetchWord, hw]
  cases hag : s.agenda with
  | nil =>
    rw [step_of_agenda_nil rfl, engineTurn_of_pending (w := encode i) rfl, runCommand_of_decode (decode_encode i),
      engineFirst, ← hag]
    rfl
  | cons turn rest =>
    rw [step_of_agenda_engine (rest := turn :: rest) rfl, engineTurn_of_pending (w := encode i) rfl,
      runCommand_of_decode (decode_encode i), ← hag]
    rfl

/-- Settles O8: the ENGINE's turn of an idle block leaves the state as it is. -/
theorem idleBlockStaysAsItIs : Obligations.IdleBlockStaysAsItIs := by
  refine fun s hcmd => ⟨fun hag => ?_, fun rest hag => ?_⟩
  · rw [step_of_agenda_nil hag, engineTurn_of_idle hcmd]
  · rw [step_of_agenda_engine hag, engineTurn_of_idle (s := { s with agenda := rest }) hcmd]

/-- Settles O11: the ENGINE's turns and resets are always answered, a HOST access by `hostAccess_next_iff`. -/
theorem stepStopsOnlyOnForbiddenAccess : Obligations.StepStopsOnlyOnForbiddenAccess := by
  intro s
  have engine (u : State) : ∃ t, engineTurn u = .next t := by
    cases hc : u.cmd with
    | none => exact ⟨u, engineTurn_of_idle hc⟩
    | some w => rw [engineTurn_of_pending hc]; exact (runCommand_outcome w u).exists_next
  cases hag : s.agenda with
  | nil =>
    rw [step_of_agenda_nil hag, nextTurnAllowed, hag]
    exact iff_of_true (engine s) rfl
  | cons turn rest =>
    cases turn with
    | engine =>
      rw [step_of_agenda_engine hag, nextTurnAllowed, hag]
      exact iff_of_true (engine _) rfl
    | reset =>
      rw [step_of_agenda_reset hag, nextTurnAllowed, hag]
      exact iff_of_true ⟨_, rfl⟩ rfl
    | host a =>
      rw [step_of_agenda_host hag, nextTurnAllowed, hag]
      exact hostAccess_next_iff (s := { s with agenda := rest })

/-- Settles O17: the write of `CMD`, then the polls by induction, then the command, which does not see the bookkeeping
the polls have left, then the poll that returns `BUSY = 0`. -/
theorem commandLineIsAtomicForEveryLatency : Obligations.CommandLineIsAtomicForEveryLatency := by
  intro s t n i rest hbusy hunp hag hexec
  obtain ⟨_, _, _, _, hcfg, _, _, _, hunp'⟩ := commandsKeepArguments i s t hexec
  obtain ⟨htbusy, _⟩ := (outcome_of_exec hexec).completed
  have hstart := step_wr_cmd (w := encode i)
    (rest := List.replicate n (pollStatus s.cfg.base) ++ (.engine :: pollStatus s.cfg.base :: rest))
    ((State.held_eq_false s).2 ⟨hbusy, hunp⟩) (by rw [hag, commandLine]; simp)
  have hpolls := run_polls (s := { s.start (encode i) with
    agenda := List.replicate n (pollStatus s.cfg.base) ++ (.engine :: pollStatus s.cfg.base :: rest) })
    (s.start_busy (encode i)) n 2 _ rfl
  have hengine : step { s.start (encode i) with
      agenda := .engine :: pollStatus s.cfg.base :: rest, seen := List.replicate n 0x01#32 ++ s.seen } =
      .next { t with
        agenda := pollStatus s.cfg.base :: rest, seen := List.replicate n 0x01#32 ++ s.seen, unpolled := true } := by
    rw [step_of_agenda_engine rfl, engineTurn_of_pending (w := encode i) rfl, runCommand_of_decode (decode_encode i)]
    exact exec_bookkeeping hexec _ _ _ _ _
  have hlast := step_pollStatus (rest := rest) (s := { t with
    agenda := pollStatus s.cfg.base :: rest, seen := List.replicate n 0x01#32 ++ s.seen, unpolled := true })
    (by rw [← hcfg])
  calc Sys2Proof.core.run (n + 3) s
      = Sys2Proof.core.run (n + 2) _ := run_succ hstart (n + 2)
    _ = Sys2Proof.core.run 2 _ := hpolls
    _ = Sys2Proof.core.run 1 _ := run_succ hengine 1
    _ = Sys2Proof.core.run 0 _ := run_succ hlast 0
    _ = .next { t with agenda := rest, seen := t.status :: (List.replicate n 0x00000001#32 ++ s.seen) } := by
      have hend : (true && t.busy) = t.unpolled := by rw [htbusy, hunp', hunp]; rfl
      exact congrArg (fun u => Host.Outcome.next { t with
        agenda := rest, seen := t.status :: (List.replicate n 0x00000001#32 ++ s.seen), unpolled := u }) hend

/-- Settles O18: each offset is that of its register. -/
theorem hostReadsAndWritesRegisters : Obligations.HostReadsAndWritesRegisters := by
  intro s v hbusy hunp
  have hready := (State.held_eq_false s).2 ⟨hbusy, hunp⟩
  refine ⟨?_, hostAccess_write_reg hready (r := .cmd) rfl v, hostAccess_write_reg hready (r := .arg 0) rfl v,
    hostAccess_write_reg hready (r := .arg 1) rfl v, hostAccess_write_reg hready (r := .arg 2) rfl v,
    hostAccess_write_reg hready (r := .arg 3) rfl v, ?_⟩
  · simp only [List.forall_mem_cons]
    exact ⟨hostAccess_read_reg hready (r := .cmd) rfl, hostAccess_read_reg hready (r := .status) rfl,
      hostAccess_read_reg hready (r := .arg 0) rfl, hostAccess_read_reg hready (r := .arg 1) rfl,
      hostAccess_read_reg hready (r := .arg 2) rfl, hostAccess_read_reg hready (r := .arg 3) rfl,
      hostAccess_read_reg hready (r := .res 0) rfl, hostAccess_read_reg hready (r := .res 1) rfl,
      hostAccess_read_reg hready (r := .res 2) rfl, hostAccess_read_reg hready (r := .res 3) rfl, by simp⟩
  · simp only [List.forall_mem_cons]
    exact ⟨hostAccess_write_reg hready (r := .status) rfl v, hostAccess_write_reg hready (r := .res 0) rfl v,
      hostAccess_write_reg hready (r := .res 1) rfl v, hostAccess_write_reg hready (r := .res 2) rfl v,
      hostAccess_write_reg hready (r := .res 3) rfl v, by simp⟩

/-- Settles O19: the access is a buffer access, and a write is a store of one byte. -/
theorem hostReadsAndWritesBufferBytes : Obligations.HostReadsAndWritesBufferBytes := by
  intro s off v hbusy hunp hoff
  have hready := (State.held_eq_false s).2 ⟨hbusy, hunp⟩
  have hin := (inBuffer_iff off).2 hoff
  refine ⟨hostAccess_read_byte hready hin, _, hostAccess_write_byte hready hin v, ?_, fun k hk => ?_, rfl⟩
  · rw [State.store_byte, if_pos (by simp), Nat.sub_self, List.getD_cons_zero]
  · exact State.store_byte_of_outside s (by rw [List.length_singleton]; omega)

/-- Settles O20: the one access a waiting HOST may make, and every other. -/
theorem busyBlockAnswersStatusOnly : Obligations.BusyBlockAnswersStatusOnly := by
  intro s a hwait hlo hhi
  refine ⟨fun ha => ha ▸ hostAccess_poll s, fun ha => ?_⟩
  have hheld : s.held = true := by rwa [State.held, Bool.or_eq_true]
  exact hostAccess_of_held hlo hhi hheld (Bool.eq_false_of_not_eq_true (mt (isStatusPoll_iff _ _).1 ha))

/-- Settles O21: the four ways an access of a ready block has no meaning. -/
theorem meaninglessAccessesAreRefused : Obligations.MeaninglessAccessesAreRefused := by
  intro s a off hbusy hunp haddr
  have hready := (State.held_eq_false s).2 ⟨hbusy, hunp⟩
  refine ⟨fun hhole => ?_, fun hoff hbad => ?_, fun hbuf hw => ?_, fun hout => hostAccess_of_outside (by omega)⟩
  · have hnot : inBuffer off = false := Bool.eq_false_of_not_eq_true (by rw [inBuffer_iff]; omega)
    rw [hostAccess_of_offset hready haddr (by omega), windowAccess_of_hole (by omega) hnot]
  · rw [hostAccess_of_offset hready haddr (by omega)]
    by_cases halign : off % 4 = 0
    · obtain ⟨r, hr⟩ := Option.isSome_iff_exists.1 ((regAt_isSome_iff off).2 ⟨hoff, halign⟩)
      rw [windowAccess_of_reg hr, regAccess_of_bad_width (hbad.resolve_left (not_not.2 halign))]
    · rw [windowAccess_of_misaligned hoff halign]
  · rw [hostAccess_of_offset hready haddr (by omega), windowAccess_of_inBuffer ((inBuffer_iff off).2 hbuf),
      bufferAccess_of_bad_width hw]

/-- Settles O22: the step is the platform's reset, and with an empty byte store every byte is its free value. -/
theorem resetAbandonsAndForgets : Obligations.ResetAbandonsAndForgets := by
  intro s rest hag
  exact ⟨_, step_of_agenda_reset hag, rfl, rfl, rfl, rfl, rfl, rfl, rfl, rfl, rfl, rfl, rfl, fun _ => rfl, rfl, rfl⟩

/-- Settles O23: the fields of the reset state (R36). -/
theorem resetRegistersAreZero : Obligations.ResetRegistersAreZero :=
  ⟨rfl, rfl, rfl, rfl, rfl, rfl, rfl, rfl, rfl, rfl, rfl, fun _ => rfl⟩

end Sys2Proof
end

section
/-! PROOFS. The buffers as the statements read them (`20_memory.md` R67, `10_state.md` R9), and the family
`40_crc_edc.md`.

A table of R121, R122 or R124 holds eight shifts of a register with feedback. Such a shift is linear over GF(2), and
eight of them only move a register whose eight outgoing bits are clear; so the table-driven update is eight shifts of
the register with the byte added, and the laws of R132 follow from linearity. -/

namespace Sys2Proof.Machine

/-! ### Buffer bytes after a store -/

section
variable (s : State)

theorem State.storeSec_sec (p : Nat) (bs : List Byte) (i : Nat) :
    (s.storeSec p bs).sec i = if p ≤ i ∧ i < p + bs.length then bs.getD (i - p) 0#8 else s.sec i := by
  rw [State.storeSec, State.sec, State.store_byte, Nat.add_sub_add_left]
  exact if_congr (by omega) rfl rfl

theorem State.storeSec_sec_of_mem {p i : Nat} {bs : List Byte} (hlo : p ≤ i) (hhi : i < p + bs.length) :
    (s.storeSec p bs).sec i = bs.getD (i - p) 0#8 := by
  rw [State.storeSec_sec, if_pos ⟨hlo, hhi⟩]

theorem State.storeSec_sec_of_outside {p i : Nat} {bs : List Byte} (h : i < p ∨ p + bs.length ≤ i) :
    (s.storeSec p bs).sec i = s.sec i := by
  rw [State.storeSec_sec, if_neg (by omega)]

theorem State.storeSec_byte_of_outside {p off : Nat} {bs : List Byte}
    (h : off < 0x1000 + p ∨ 0x1000 + p + bs.length ≤ off) : (s.storeSec p bs).byte off = s.byte off :=
  State.store_byte_of_outside s h

theorem State.storeSec_secRun_of_disjoint {p i n : Nat} {bs : List Byte} (h : i + n ≤ p ∨ p + bs.length ≤ i) :
    (s.storeSec p bs).secRun i n = s.secRun i n :=
  State.store_bytes_of_disjoint s (by omega)

/-- The bytes of a store read back one by one. -/
theorem State.storeSubd_subd_of_mem {p i : Nat} {bs : List Byte} (hlo : p ≤ i) (hhi : i < p + bs.length) :
    (s.storeSubd p bs).subd i = bs.getD (i - p) 0#8 := by
  rw [State.storeSubd, State.subd, State.store_byte, Nat.add_sub_add_left, if_pos (by omega)]

theorem State.storeSubr_subr_of_mem {i : Nat} {bs : List Byte} (h : i < bs.length) :
    (s.storeSubr bs).subr i = bs.getD i 0#8 := by
  rw [State.storeSubr, State.subr, State.store_byte, Nat.add_sub_cancel_left, if_pos (by omega)]

/-! ### The statements' readers are the model's -/

theorem State.secBytes_eq (i n : Nat) : s.secBytes i n = s.secRun i n := (s.secRun_eq_map i n).symm

theorem State.secU32_eq (p : Nat) : s.secU32 p = s.secWord p := rfl

theorem State.qBytes_eq (n : Nat) : s.qBytes n = s.subdRun 12 n := (s.subdRun_eq_map 12 n).symm

theorem State.subrAll_getD {i : Nat} (h : i < 96) : s.subrAll.getD i 0#8 = s.subr i := by
  simp [State.subrAll_eq_map, h]

theorem State.subdRun_getD {i n j : Nat} (h : j < n) : (s.subdRun i n).getD j 0#8 = s.subd (i + j) := by
  simp [State.subdRun_eq_map, h]

theorem State.secRun_getD {i n j : Nat} (h : j < n) : (s.secRun i n).getD j 0#8 = s.sec (i + j) := by
  simp [State.secRun_eq_map, h]

/-- R67: a word stored little-endian reads back. -/
theorem State.storeSec_secWord_self (p : Nat) (w : Word) : (s.storeSec p (leBytes w)).secWord p = w := by
  have hbyte (j : Nat) (hj : j < 4) : (s.storeSec p (leBytes w)).sec (p + j) = (leBytes w).getD j 0#8 := by
    rw [State.storeSec_sec_of_mem s (by omega) (by simpa using hj), Nat.add_sub_cancel_left]
  have hfirst : (s.storeSec p (leBytes w)).sec p = (leBytes w).getD 0 0#8 := hbyte 0 (by decide)
  rw [State.secWord, hfirst, hbyte 1 (by decide), hbyte 2 (by decide), hbyte 3 (by decide), leWord_leBytes]

/-- A store outside the four bytes of a stored word leaves it. -/
theorem State.storeSec_secWord_of_disjoint {p q : Nat} {bs : List Byte} (h : q + 4 ≤ p ∨ p + bs.length ≤ q) :
    (s.storeSec p bs).secWord q = s.secWord q := by
  rw [State.secWord, State.storeSec_sec_of_outside s (by omega), State.storeSec_sec_of_outside s (by omega),
    State.storeSec_sec_of_outside s (by omega), State.storeSec_sec_of_outside s (by omega), State.secWord]

/-! ### Completions -/

theorem State.completed_finish (r0 r1 r2 r3 : Word) : (s.finish r0 r1 r2 r3).Completed r0 r1 r2 r3 :=
  ⟨rfl, rfl, rfl, rfl, rfl, rfl⟩

theorem State.sameFixed_store_finish (off : Nat) (bs : List Byte) (r0 r1 r2 r3 : Word) :
    s.SameFixed ((s.store off bs).finish r0 r1 r2 r3) :=
  ⟨rfl, rfl, rfl, rfl, rfl, rfl, rfl, rfl, rfl⟩

theorem State.sameBytesOutside_store_finish (off : Nat) (bs : List Byte) (r0 r1 r2 r3 : Word) :
    SameBytesOutside s ((s.store off bs).finish r0 r1 r2 r3) off (off + bs.length) :=
  fun _ h => State.store_byte_of_outside s h

end

/-! ### Repeated linear steps -/

section
variable {w : Nat} {f : BitVec w → BitVec w}

theorem repeat_xor (hf : ∀ a b, f (a ^^^ b) = f a ^^^ f b) (n : Nat) (a b : BitVec w) :
    Nat.repeat f n (a ^^^ b) = Nat.repeat f n a ^^^ Nat.repeat f n b := by
  induction n with
  | zero => rfl
  | succ n ih => simp only [Nat.repeat, ih, hf]

theorem repeat_add (m n : Nat) (a : BitVec w) : Nat.repeat f (m + n) a = Nat.repeat f m (Nat.repeat f n a) := by
  induction m with
  | zero => rw [Nat.zero_add]; rfl
  | succ m ih => rw [Nat.succ_add]; simp only [Nat.repeat, ih]

theorem repeat_injective (hf : Function.Injective f) (n : Nat) : Function.Injective (Nat.repeat f n) := by
  induction n with
  | zero => exact fun _ _ h => h
  | succ n ih => exact fun _ _ h => ih (hf h)

theorem xor_feedback (p : BitVec w) (b c : Bool) :
    (if b ^^ c then p else 0#w) = (if b then p else 0#w) ^^^ (if c then p else 0#w) := by
  cases b <;> cases c <;> simp

/-- One shift to the right with the feedback `p`: the shift of R122 and R124. -/
def shiftRightFeedback (p r : BitVec w) : BitVec w := (r >>> 1) ^^^ (if r.getLsbD 0 then p else 0#w)

theorem shiftRightFeedback_xor (p a b : BitVec w) :
    shiftRightFeedback p (a ^^^ b) = shiftRightFeedback p a ^^^ shiftRightFeedback p b := by
  simp only [shiftRightFeedback, BitVec.ushiftRight_xor_distrib, BitVec.getLsbD_xor, xor_feedback]
  ac_rfl

/-- While the outgoing bits are clear there is no feedback. -/
theorem repeat_shiftRightFeedback_of_clear (p a : BitVec w) (n : Nat) (h : ∀ i < n, a.getLsbD i = false) :
    Nat.repeat (shiftRightFeedback p) n a = a >>> n := by
  induction n with
  | zero => simp [Nat.repeat]
  | succ n ih =>
    have hout : (a >>> n).getLsbD 0 = false := by simpa using h n (Nat.lt_succ_self n)
    rw [Nat.repeat, ih fun i hi => h i (Nat.lt_succ_of_lt hi), shiftRightFeedback, hout, BitVec.shiftRight_add]
    simp

/-- The table-driven update is eight shifts of the register with the byte added into its low end. -/
theorem tableUpdate_right (p c : BitVec w) (x : Byte) :
    (c >>> 8) ^^^ Nat.repeat (shiftRightFeedback p) 8 ((c.extractLsb' 0 8 ^^^ x).setWidth w) =
      Nat.repeat (shiftRightFeedback p) 8 (c ^^^ x.setWidth w) := by
  have hsplit : c ^^^ x.setWidth w = (c >>> 8 <<< 8) ^^^ (c.extractLsb' 0 8 ^^^ x).setWidth w := by
    apply BitVec.eq_of_getLsbD_eq
    intro i hi
    by_cases h : i < 8
    · simp [h, hi]
    · simp [h, hi, Nat.add_sub_cancel' (Nat.not_lt.1 h)]
  have hclear : Nat.repeat (shiftRightFeedback p) 8 (c >>> 8 <<< 8) = c >>> 8 := by
    rw [repeat_shiftRightFeedback_of_clear p _ 8 fun i hi => by simp [hi]]
    apply BitVec.eq_of_getLsbD_eq
    intro i hi
    by_cases h : 8 + i < w
    · simp [h]
    · simp [h, BitVec.getLsbD_of_ge c (8 + i) (Nat.not_lt.1 h)]
  rw [hsplit, repeat_xor (shiftRightFeedback_xor p), hclear]

end

/-! ### EDC (R124, R125) -/

theorem edcShift_eq : edcShift = shiftRightFeedback 0xD8018001#32 := rfl

theorem zero_append_byte_24 (x : Byte) : (0#24 ++ x : Word) = x.setWidth 32 := by
  apply BitVec.eq_of_getLsbD_eq
  intro i hi
  rw [BitVec.getLsbD_append, BitVec.getLsbD_setWidth]
  by_cases h : i < 8
  · simp [h, show i < 32 by omega]
  · simp [h, BitVec.getLsbD_of_ge x i (Nat.not_lt.1 h)]

theorem edcStep_eq (e : Word) (x : Byte) : edcStep e x = Nat.repeat edcShift 8 (e ^^^ (0#24 ++ x)) := by
  rw [edcStep, edcT, zero_append_byte_24, zero_append_byte_24, edcShift_eq, tableUpdate_right]

theorem edcStep_xor (e f : Word) (x y : Byte) : edcStep (e ^^^ f) (x ^^^ y) = edcStep e x ^^^ edcStep f y := by
  have hsum : (e ^^^ f) ^^^ (0#24 ++ (x ^^^ y)) = (e ^^^ (0#24 ++ x)) ^^^ (f ^^^ (0#24 ++ y)) := by
    simp only [zero_append_byte_24, BitVec.setWidth_xor]
    ac_rfl
  rw [edcStep_eq, edcStep_eq, edcStep_eq, hsum, edcShift_eq, repeat_xor (shiftRightFeedback_xor _)]

theorem edc_append (e : Word) (x y : List Byte) : edc e (x ++ y) = edc (edc e x) y := List.foldl_append

theorem edc_zeros (n : Nat) : edc 0#32 (List.replicate n 0#8) = 0#32 := by
  induction n with
  | zero => rfl
  | succ n ih =>
    have hstep : edcStep 0#32 0#8 = 0#32 := by decide
    rw [edc, List.replicate_succ, List.foldl_cons, hstep]
    exact ih

theorem edc_xor (e f : Word) (x y : List Byte) (h : x.length = y.length) :
    edc (e ^^^ f) (List.zipWith (· ^^^ ·) x y) = edc e x ^^^ edc f y := by
  induction x generalizing e f y with
  | nil =>
    obtain rfl : y = [] := List.length_eq_zero_iff.1 h.symm
    rfl
  | cons a x ih =>
    cases y with
    | nil => cases h
    | cons b y =>
      have hstep := ih (edcStep e a) (edcStep f b) y (Nat.succ.inj h)
      rw [← edcStep_xor] at hstep
      exact hstep

/-! ### CRC-16 (R120 to R122) -/

theorem crc16Shift_kermit : crc16Shift .kermit = shiftRightFeedback 0x8408#16 := rfl

theorem crc16Shift_xor (v : Crc16Variant) (a b : Half) :
    crc16Shift v (a ^^^ b) = crc16Shift v a ^^^ crc16Shift v b := by
  cases v with
  | redbook =>
    simp only [crc16Shift, BitVec.shiftLeft_xor_distrib, BitVec.getLsbD_xor, xor_feedback]
    ac_rfl
  | kermit => exact shiftRightFeedback_xor 0x8408#16 a b

/-- While the outgoing bits are clear the shift of R121 has no feedback either. -/
theorem repeat_crc16Shift_redbook_of_clear (a : Half) (n : Nat) (h : ∀ i < n, a.getLsbD (15 - i) = false)
    (hn : n ≤ 16) : Nat.repeat (crc16Shift .redbook) n a = a <<< n := by
  induction n with
  | zero => simp [Nat.repeat]
  | succ n ih =>
    have hout : (a <<< n).getLsbD 15 = false := by
      rw [BitVec.getLsbD_shiftLeft, h n (Nat.lt_succ_self n), Bool.and_false]
    rw [Nat.repeat, ih (fun i hi => h i (Nat.lt_succ_of_lt hi)) (by omega), crc16Shift, hout, BitVec.shiftLeft_add]
    simp

theorem repeat_redbook_low (x : Byte) : Nat.repeat (crc16Shift .redbook) 8 (0#8 ++ x) = x ++ 0#8 := by
  rw [repeat_crc16Shift_redbook_of_clear _ 8 (fun i hi => by
    rw [BitVec.getLsbD_append, if_neg (by omega)]; simp) (by decide)]
  apply BitVec.eq_of_getLsbD_eq
  intro i hi
  rw [BitVec.getLsbD_shiftLeft, BitVec.getLsbD_append, BitVec.getLsbD_append]
  by_cases h : i < 8
  · simp [h]
  · simp [h, hi, show i - 8 < 8 by omega]

theorem repeat_kermit_high (x : Byte) : Nat.repeat (crc16Shift .kermit) 8 (x ++ 0#8) = 0#8 ++ x := by
  rw [crc16Shift_kermit, repeat_shiftRightFeedback_of_clear _ _ 8 (fun i hi => by
    rw [BitVec.getLsbD_append, if_pos hi]; simp)]
  apply BitVec.eq_of_getLsbD_eq
  intro i hi
  rw [BitVec.getLsbD_ushiftRight, BitVec.getLsbD_append, BitVec.getLsbD_append]
  by_cases h : i < 8
  · simp [h]
  · simp [h, BitVec.getLsbD_of_ge x i (by omega)]

theorem zero_append_byte_8 (x : Byte) : (0#8 ++ x : Half) = x.setWidth 16 := by
  apply BitVec.eq_of_getLsbD_eq
  intro i hi
  rw [BitVec.getLsbD_append, BitVec.getLsbD_setWidth]
  by_cases h : i < 8
  · simp [h, show i < 16 by omega]
  · simp [h, BitVec.getLsbD_of_ge x i (Nat.not_lt.1 h)]

/-- R121, R122: the update is eight shifts of the register with the byte added where the table starts it. -/
theorem crc16Step_eq (v : Crc16Variant) (c : Half) (x : Byte) :
    crc16Step v c x = Nat.repeat (crc16Shift v) 8 (c ^^^ crc16Start v x) := by
  cases v with
  | redbook =>
    have hsplit : c ^^^ (x ++ 0#8) = (0#8 ++ c.extractLsb' 0 8) ^^^ ((c.extractLsb' 8 8 ^^^ x) ++ 0#8) := by
      apply BitVec.eq_of_getLsbD_eq
      intro i hi
      simp only [BitVec.getLsbD_xor, BitVec.getLsbD_append, BitVec.getLsbD_extractLsb']
      by_cases h : i < 8
      · simp [h]
      · simp [h, show i - 8 < 8 by omega, show 8 + (i - 8) = i by omega]
    have hlow : c.extractLsb' 0 8 ++ 0#8 = c <<< 8 := by
      apply BitVec.eq_of_getLsbD_eq
      intro i hi
      rw [BitVec.getLsbD_append, BitVec.getLsbD_shiftLeft, BitVec.getLsbD_extractLsb']
      by_cases h : i < 8
      · simp [h]
      · simp [h, hi, show i - 8 < 8 by omega]
    rw [crc16Start, hsplit, repeat_xor (crc16Shift_xor _), repeat_redbook_low, hlow]
    rfl
  | kermit =>
    have hupdate := tableUpdate_right 0x8408#16 c x
    rw [← zero_append_byte_8, ← zero_append_byte_8] at hupdate
    exact hupdate

/-- The feedback of either polynomial makes the outgoing bit visible, so no shift loses information. -/
theorem crc16Shift_eq_zero {v : Crc16Variant} {c : Half} (h : crc16Shift v c = 0#16) : c = 0#16 := by
  cases v with
  | redbook =>
    have hout : c.getLsbD 15 = false := by
      have hbit := congrArg (·.getLsbD 0) h
      by_contra hne
      simp [crc16Shift, Bool.eq_true_of_not_eq_false hne] at hbit
    apply BitVec.eq_of_getLsbD_eq
    intro i hi
    by_cases h15 : i = 15
    · simpa [h15] using hout
    · have hbit := congrArg (·.getLsbD (i + 1)) h
      rw [crc16Shift, hout] at hbit
      simpa [show i + 1 < 16 by omega, BitVec.getLsbD_eq_getElem hi] using hbit
  | kermit =>
    have hout : c.getLsbD 0 = false := by
      have hbit := congrArg (·.getLsbD 15) h
      by_contra hne
      simp [crc16Shift, Bool.eq_true_of_not_eq_false hne] at hbit
    apply BitVec.eq_of_getLsbD_eq
    intro i hi
    by_cases h0 : i = 0
    · simpa [h0] using hout
    · have hbit := congrArg (·.getLsbD (i - 1)) h
      rw [crc16Shift, hout] at hbit
      simpa [show 1 + (i - 1) = i by omega] using hbit

theorem crc16Shift_injective (v : Crc16Variant) : Function.Injective (crc16Shift v) := by
  intro a b h
  have hkernel : crc16Shift v (a ^^^ b) = 0#16 := by rw [crc16Shift_xor, h, BitVec.xor_self]
  exact BitVec.xor_eq_zero_iff.1 (crc16Shift_eq_zero hkernel)

theorem crc16Start_injective (v : Crc16Variant) : Function.Injective (crc16Start v) := by
  intro a b h
  apply BitVec.eq_of_getLsbD_eq
  intro i hi
  cases v with
  | redbook =>
    have hbit := congrArg (·.getLsbD (i + 8)) h
    simpa only [crc16Start, BitVec.getLsbD_append, show ¬ i + 8 < 8 by omega, if_false, Nat.add_sub_cancel] using hbit
  | kermit =>
    have hbit := congrArg (·.getLsbD i) h
    simpa only [crc16Start, BitVec.getLsbD_append, hi, if_true] using hbit

theorem xor_left_injective (a : Half) : Function.Injective (a ^^^ ·) := fun b c h => by
  have hxor := congrArg (a ^^^ ·) h
  simpa only [← BitVec.xor_assoc, BitVec.xor_self, BitVec.zero_xor] using hxor

theorem crc16Step_injective_byte (v : Crc16Variant) (c : Half) : Function.Injective (crc16Step v c) := by
  intro x y h
  rw [crc16Step_eq, crc16Step_eq] at h
  exact crc16Start_injective v (xor_left_injective c (repeat_injective (crc16Shift_injective v) 8 h))

theorem crc16Step_injective_register (v : Crc16Variant) (x : Byte) : Function.Injective (crc16Step v · x) := by
  intro c d h
  dsimp only at h
  rw [crc16Step_eq, crc16Step_eq] at h
  have hxor := repeat_injective (crc16Shift_injective v) 8 h
  rw [BitVec.xor_comm c, BitVec.xor_comm d] at hxor
  exact xor_left_injective _ hxor

theorem foldl_crc16Step_injective (v : Crc16Variant) (y : List Byte) :
    Function.Injective fun c => y.foldl (crc16Step v) c := by
  induction y with
  | nil => exact fun _ _ h => h
  | cons x y ih => exact fun _ _ h => crc16Step_injective_register v x (ih h)

theorem crc16Final_injective (v : Crc16Variant) : Function.Injective (crc16Final v) := by
  cases v with
  | redbook =>
    intro c d h
    have h : c ^^^ 0xFFFF#16 = d ^^^ 0xFFFF#16 := h
    rw [BitVec.xor_comm c, BitVec.xor_comm d] at h
    exact xor_left_injective _ h
  | kermit => exact fun _ _ h => h

/-- R132, law 4. -/
theorem crc16_ne_of_byte_ne (v : Crc16Variant) (x y : List Byte) {a b : Byte} (h : a ≠ b) :
    crc16 v (x ++ a :: y) ≠ crc16 v (x ++ b :: y) := by
  intro heq
  have hfold := crc16Final_injective v heq
  rw [List.foldl_append, List.foldl_append, List.foldl_cons, List.foldl_cons] at hfold
  exact h (crc16Step_injective_byte v _ (foldl_crc16Step_injective v y hfold))

/-- R132, law 5: a register of 0 stays 0 over zeros. -/
theorem crc16_zeros (v : Crc16Variant) (n : Nat) : crc16 v (List.replicate n 0#8) = crc16Final v 0#16 := by
  have hstep : crc16Step v 0#16 0#8 = 0#16 := by cases v <;> decide
  have hfold : (List.replicate n 0#8).foldl (crc16Step v) 0#16 = 0#16 := by
    induction n with
    | zero => rfl
    | succ n ih => rw [List.replicate_succ, List.foldl_cons, hstep, ih]
  rw [crc16, hfold]

/-- Two bytes are sixteen shifts of the register with both added. -/
theorem crc16Step_two_redbook (c : Half) (a b : Byte) :
    crc16Step .redbook (crc16Step .redbook c a) b = Nat.repeat (crc16Shift .redbook) 16 (c ^^^ (a ++ b)) := by
  have hjoin : a ++ b = (a ++ 0#8) ^^^ (0#8 ++ b) := by
    apply BitVec.eq_of_getLsbD_eq
    intro i hi
    simp only [BitVec.getLsbD_xor, BitVec.getLsbD_append]
    by_cases h : i < 8 <;> simp [h]
  rw [crc16Step_eq, crc16Step_eq, crc16Start, crc16Start, ← repeat_redbook_low b, ← repeat_xor (crc16Shift_xor _),
    ← repeat_add, hjoin, BitVec.xor_assoc]

theorem crc16Step_two_kermit (c : Half) (a b : Byte) :
    crc16Step .kermit (crc16Step .kermit c a) b = Nat.repeat (crc16Shift .kermit) 16 (c ^^^ (b ++ a)) := by
  have hjoin : b ++ a = (0#8 ++ a) ^^^ (b ++ 0#8) := by
    apply BitVec.eq_of_getLsbD_eq
    intro i hi
    simp only [BitVec.getLsbD_xor, BitVec.getLsbD_append]
    by_cases h : i < 8 <;> simp [h]
  rw [crc16Step_eq, crc16Step_eq, crc16Start, crc16Start, ← repeat_kermit_high b, ← repeat_xor (crc16Shift_xor _),
    ← repeat_add, hjoin, BitVec.xor_assoc]

/-- The two bytes of a half word, joined. -/
theorem halfBytes_append (c : Half) : c.extractLsb' 8 8 ++ c.extractLsb' 0 8 = c := by
  apply BitVec.eq_of_getLsbD_eq
  intro i hi
  simp only [BitVec.getLsbD_append, BitVec.getLsbD_extractLsb']
  by_cases h : i < 8
  · simp [h]
  · simp [h, show i - 8 < 8 by omega, show 8 + (i - 8) = i by omega]

theorem crc16_append_two (v : Crc16Variant) (x : List Byte) (a b : Byte) :
    crc16 v (x ++ [a, b]) = crc16Final v (crc16Step v (crc16Step v (x.foldl (crc16Step v) 0#16) a) b) := by
  rw [crc16, List.foldl_append, List.foldl_cons, List.foldl_cons, List.foldl_nil]

/-- R132, law 6, REDBOOK: with the CRC behind the bytes only its complement is left in the register. -/
theorem crc16_residue_redbook (x : List Byte) :
    crc16 .redbook (x ++ [(crc16 .redbook x).extractLsb' 8 8, (crc16 .redbook x).extractLsb' 0 8]) = 0xE2F0#16 := by
  have hcancel (c : Half) : c ^^^ (c ^^^ 0xFFFF#16) = 0xFFFF#16 := by
    rw [← BitVec.xor_assoc, BitVec.xor_self, BitVec.zero_xor]
  have hconst : crc16Final .redbook (Nat.repeat (crc16Shift .redbook) 16 0xFFFF#16) = 0xE2F0#16 := by decide
  rw [crc16_append_two, crc16Step_two_redbook, halfBytes_append, crc16]
  exact (congrArg _ (congrArg _ (hcancel _))).trans hconst

/-- R132, law 6, KERMIT: low byte first, nothing is left. -/
theorem crc16_residue_kermit (x : List Byte) :
    crc16 .kermit (x ++ [(crc16 .kermit x).extractLsb' 0 8, (crc16 .kermit x).extractLsb' 8 8]) = 0#16 := by
  have hconst : crc16Final .kermit (Nat.repeat (crc16Shift .kermit) 16 0#16) = 0#16 := by decide
  rw [crc16_append_two, crc16Step_two_kermit, halfBytes_append, crc16]
  exact (congrArg _ (congrArg _ BitVec.xor_self)).trans hconst

/-! ### The commands CRC16 and EDC -/

section
variable {s : State}

theorem exec_crc16_of_le (h : s.arg0.toNat + s.arg1.toNat ≤ 96) : exec .crc16 s = .next
    (s.finish (0#16 ++ crc16 s.cfg.crc16Variant (s.subdRun s.arg0.toNat s.arg1.toNat)) 0#32 0#32 0#32) :=
  if_neg (show ¬ (s.arg0.toNat > 96 ∨ s.arg1.toNat > 96 - s.arg0.toNat) by omega)

theorem exec_crc16_of_lt (h : 96 < s.arg0.toNat + s.arg1.toNat) : exec .crc16 s = .next (s.raise .invalidInput) :=
  if_pos (show s.arg0.toNat > 96 ∨ s.arg1.toNat > 96 - s.arg0.toNat by omega)

theorem exec_edc_of_le (h : s.arg1.toNat + s.arg2.toNat ≤ 2352) : exec .edc s = .next
    (s.finish (edc s.arg0 (s.secRun s.arg1.toNat s.arg2.toNat)) 0#32 0#32 0#32) :=
  if_neg (show ¬ (s.arg1.toNat > 2352 ∨ s.arg2.toNat > 2352 - s.arg1.toNat) by omega)

theorem exec_edc_of_lt (h : 2352 < s.arg1.toNat + s.arg2.toNat) : exec .edc s = .next (s.raise .invalidInput) :=
  if_pos (show s.arg1.toNat > 2352 ∨ s.arg2.toNat > 2352 - s.arg1.toNat by omega)

end

/-! ### The commands EDC.GEN and EDC.CHK -/

/-- R126: the rows of the statements are the fields of the model. -/
theorem edcField_of_mem_edcRows {mode : TrackMode} {lo n p : Nat} (h : (mode, lo, n, p) ∈ edcRows) :
    edcField mode = some ⟨lo, n, p⟩ := by
  simp only [edcRows, List.mem_cons, Prod.mk.injEq, List.not_mem_nil, or_false] at h
  rcases h with ⟨rfl, rfl, rfl, rfl⟩ | ⟨rfl, rfl, rfl, rfl⟩ | ⟨rfl, rfl, rfl, rfl⟩ <;> rfl

theorem edcField_eq_none {mode : TrackMode} (h : mode = .audio ∨ mode = .cdMode2Formless) : edcField mode = none := by
  rcases h with rfl | rfl <;> rfl

section
variable {s : State} {mode : TrackMode}

theorem exec_edcGen_of_some {f : EdcField} (hf : edcField mode = some f) : exec (.edcGen mode) s = .next
    ((s.storeSec f.stored (leBytes (sectorEdc f s))).finish (sectorEdc f s) 0#32 0#32 0#32) := by
  rw [exec, execEdcGen, hf]

theorem exec_edcGen_of_none (hf : edcField mode = none) :
    exec (.edcGen mode) s = .next (s.raise .unsupportedField) := by
  rw [exec, execEdcGen, hf]

theorem exec_edcChk_of_some {f : EdcField} (hf : edcField mode = some f) : exec (.edcChk mode) s = .next
    (s.finish (edcFlags (s.secWord f.stored == 0#32) (sectorEdc f s == s.secWord f.stored)) (sectorEdc f s)
      (s.secWord f.stored) 0#32) := by
  rw [exec, execEdcChk, hf]

theorem exec_edcChk_of_none (hf : edcField mode = none) :
    exec (.edcChk mode) s = .next (s.raise .unsupportedField) := by
  rw [exec, execEdcChk, hf]

end

theorem sectorEdc_eq (lo n p : Nat) (s : State) : sectorEdc ⟨lo, n, p⟩ s = edc 0#32 (s.secBytes lo n) := by
  rw [State.secBytes_eq, sectorEdc]

/-- A mode that completes EDC.GEN has an EDC. -/
theorem edcField_of_edcGen {mode : TrackMode} {s t : State} (h : exec (.edcGen mode) s = .next t)
    (he : t.err = 0#4) : ∃ f, edcField mode = some f := by
  cases hf : edcField mode with
  | some f => exact ⟨f, rfl⟩
  | none =>
    rw [exec_edcGen_of_none hf] at h
    rw [← Host.Outcome.next.inj h, State.raise_err] at he
    exact absurd he (errorCode_ne_zero _)

/-- The stored EDC lies behind the bytes it covers, so storing it does not change it. -/
theorem sectorEdc_storeSec_stored {mode : TrackMode} {f : EdcField} (hf : edcField mode = some f) (s : State)
    (bs : List Byte) : sectorEdc f (s.storeSec f.stored bs) = sectorEdc f s := by
  rw [sectorEdc, State.storeSec_secRun_of_disjoint s (.inl (edcField_bounds hf).1), sectorEdc]

/-- Storing the bytes a range holds changes no byte. -/
theorem State.storeSec_byte_of_held (s : State) {i : Nat} {bs : List Byte} (h : s.secRun i bs.length = bs) (off : Nat) :
    (s.storeSec i bs).byte off = s.byte off := by
  rw [State.storeSec, State.store_byte]
  split
  · rename_i hin
    rw [← h, State.secRun_getD s (by omega), State.sec]
    exact congrArg s.byte (by omega)
  · rfl

end Sys2Proof.Machine

namespace Sys2Proof

open Machine

/-! ### The obligations -/

/-- Settles O25: the range check in natural numbers, and the run read byte by byte. -/
theorem crc16OfARange : Obligations.Crc16OfARange := by
  refine fun s => ⟨fun h => ?_, fun h => ?_⟩
  · rw [exec_crc16_of_le h, State.subdRun_eq_map, State.finish_eq]
  · rw [exec_crc16_of_lt h, State.raise_eq_failed]
    rfl

/-- Settles O26: the range check in natural numbers, and the run read byte by byte. -/
theorem edcOfARange : Obligations.EdcOfARange := by
  refine fun s => ⟨fun h => ?_, fun h => ?_⟩
  · rw [exec_edc_of_le h, ← State.secBytes_eq, State.finish_eq]
  · rw [exec_edc_of_lt h, State.raise_eq_failed]
    rfl

/-- Settles O27: the three updates are eight shifts, and the statement writes the shifts out. -/
theorem tableUpdateIsBitSerial : Obligations.TableUpdateIsBitSerial :=
  ⟨edcStep_eq, crc16Step_eq .redbook, crc16Step_eq .kermit⟩

/-- Settles O28: chaining is that of `foldl`, the rest is linearity of one step. -/
theorem edcLaws : Obligations.EdcLaws :=
  ⟨fun e x y => (edc_append e x y).symm, edc_zeros, edc_xor⟩

/-- Settles O29: every step is injective in the byte and in the register; the residues are sixteen shifts of a
constant. -/
theorem crc16Laws : Obligations.Crc16Laws :=
  ⟨fun v x y _ _ h => crc16_ne_of_byte_ne v x y h, fun n => ⟨crc16_zeros .redbook n, crc16_zeros .kermit n⟩,
    fun x => ⟨crc16_residue_redbook x, crc16_residue_kermit x⟩⟩

/-- Settles O30: a store of the four bytes of the EDC. -/
theorem edcGenStoresTheEdc : Obligations.EdcGenStoresTheEdc := by
  refine fun s => ⟨fun mode lo n p h => ?_, fun mode h => ?_⟩
  · rw [← sectorEdc_eq lo n p, exec_edcGen_of_some (edcField_of_mem_edcRows h)]
    exact ⟨_, rfl, State.completed_finish _ .., State.sameFixed_store_finish s .., State.storeSec_secWord_self s p _,
      State.sameBytesOutside_store_finish s _ _ _ _ _ _⟩
  · rw [exec_edcGen_of_none (edcField_eq_none h), State.raise_eq_failed]
    rfl

/-- Settles O31: the two words compared are those of the statement. -/
theorem edcChkCompares : Obligations.EdcChkCompares := by
  refine fun s => ⟨fun mode lo n p h => ?_, fun mode h => ?_⟩
  · rw [exec_edcChk_of_some (edcField_of_mem_edcRows h), sectorEdc_eq, ← State.secU32_eq, State.finish_eq, edcFlags]
  · rw [exec_edcChk_of_none (edcField_eq_none h), State.raise_eq_failed]
    rfl

/-- Settles O32: the stored EDC is not covered, so it is still the EDC of the sector, and storing it again changes
nothing. -/
theorem edcGenThenChkMatches : Obligations.EdcGenThenChkMatches := by
  intro mode s t h he
  obtain ⟨f, hf⟩ := edcField_of_edcGen h he
  rw [exec_edcGen_of_some hf] at h
  have ht := (Host.Outcome.next.inj h).symm
  have hres : t.res0 = sectorEdc f s := by rw [ht, State.finish_res0]
  have hedc : sectorEdc f t = sectorEdc f s := by
    rw [ht]
    exact sectorEdc_storeSec_stored hf s _
  have hword : t.secWord f.stored = sectorEdc f s := by
    rw [ht]
    exact State.storeSec_secWord_self s _ _
  have hheld : t.secRun f.stored (leBytes (sectorEdc f s)).length = leBytes (sectorEdc f s) := by
    rw [ht]
    exact State.store_bytes_self s _ _
  refine ⟨⟨_, exec_edcChk_of_some hf, ?_, ?_, ?_⟩, _, exec_edcGen_of_some hf, ?_, fun off => ?_⟩
  · rw [State.finish_res0, hedc, hword, beq_self_eq_true, edcFlags, BitVec.getLsbD_append]
    simp
  · rw [State.finish_res1, hedc, hres]
  · rw [State.finish_res2, hword, hres]
  · rw [State.finish_res0, hedc, hres]
  · rw [State.finish_byte, hedc]
    exact State.storeSec_byte_of_held t hheld off

end Sys2Proof
end

section
/-! PROOFS. The family `41_ecc.md`, continued: the codewords of R160, the rows of R156, and the four parity commands.

Every step of a row stays inside the row's range, so a row is an arithmetic progression modulo the range; row and
position of a byte are then read off its index. A parity field is compared or stored pair by pair, and its bytes lie
behind every byte its rows visit. -/

namespace Sys2Proof.Machine

/-! ### Codewords (R160) -/

/-- R151: `ECC_B` inverts `i ^ ECC_F[i]` on every byte. -/
theorem eccB_xor_eccF_eccB (y : Byte) : eccB y ^^^ eccF (eccB y) = y := by
  obtain ⟨i, hi⟩ := Finite.injective_iff_surjective.1 xor_eccF_injective y
  dsimp only at hi
  rw [← hi, eccB_xor_eccF]

/-- The accumulation of R155 from `(α h, b)`: α times the Horner value, and the plain sum. -/
theorem foldl_eccStep (row : List Byte) (h b : Byte) :
    row.foldl eccStep (eccF h, b) =
      (eccF (row.foldl (fun acc d => eccF acc ^^^ d) h), row.foldl (fun acc d => acc ^^^ d) b) := by
  induction row generalizing h b with
  | nil => rfl
  | cons t row ih => exact ih (eccF h ^^^ t) (b ^^^ t)

/-- The pair of a row in terms of its Horner value `a` and its sum `b`. -/
theorem eccPair_eq (l : List Byte) (p : EccParams) (m : Nat) :
    eccPair l p m = eccClose (eccF ((eccRow l p m).foldl (fun acc d => eccF acc ^^^ d) 0#8),
      (eccRow l p m).foldl (fun acc d => acc ^^^ d) 0#8) := by
  have hzero : eccF 0#8 = 0#8 := by decide
  rw [eccPair, ← foldl_eccStep, hzero]

/-- The pair of R155 cancels the sum and the Horner value of its row. -/
theorem eccClose_cancels (a b : Byte) :
    b ^^^ (eccClose (eccF a, b)).1 ^^^ (eccClose (eccF a, b)).2 = 0#8 ∧
    eccF (eccF a ^^^ (eccClose (eccF a, b)).1) ^^^ (eccClose (eccF a, b)).2 = 0#8 := by
  have hx := eccB_xor_eccF_eccB (eccF (eccF a) ^^^ b)
  simp only [eccClose]
  generalize eccB (eccF (eccF a) ^^^ b) = x at hx ⊢
  constructor
  · rw [BitVec.xor_assoc, ← BitVec.xor_assoc x, BitVec.xor_self, BitVec.zero_xor, BitVec.xor_self]
  · calc eccF (eccF a ^^^ x) ^^^ (x ^^^ b) = (x ^^^ eccF x) ^^^ (eccF (eccF a) ^^^ b) := by rw [eccF_xor]; ac_rfl
      _ = 0#8 := by rw [hx, BitVec.xor_self]

/-! ### The rows (R155, R156) -/

theorem eccNext_eq {p : EccParams} {idx : Nat} (hinc : p.minorInc ≤ p.majorCount * p.minorCount)
    (hidx : idx < p.majorCount * p.minorCount) :
    eccNext p idx = (idx + p.minorInc) % (p.majorCount * p.minorCount) := by
  rw [eccNext]
  split
  · rename_i h
    rw [Nat.mod_eq_sub_mod h, Nat.mod_eq_of_lt (by omega)]
  · rename_i h
    rw [Nat.mod_eq_of_lt (by omega)]

/-- A row is an arithmetic progression modulo the range. -/
theorem eccVisits_getElem? {p : EccParams} {idx : Nat} (hinc : p.minorInc ≤ p.majorCount * p.minorCount)
    (hidx : idx < p.majorCount * p.minorCount) {n k : Nat} (hk : k < n) :
    (eccVisits p idx n)[k]? = some ((idx + k * p.minorInc) % (p.majorCount * p.minorCount)) := by
  induction n generalizing idx k with
  | zero => omega
  | succ n ih =>
    rw [eccVisits]
    cases k with
    | zero => rw [List.getElem?_cons_zero, Nat.zero_mul, Nat.add_zero, Nat.mod_eq_of_lt hidx]
    | succ k =>
      rw [List.getElem?_cons_succ, eccNext_eq hinc hidx, ih (Nat.mod_lt _ (by omega)) (by omega), Nat.mod_add_mod,
        Nat.succ_mul, Nat.add_assoc, Nat.add_comm p.minorInc]

theorem pVisits_getElem? {m k : Nat} (hm : m < 86) (hk : k < 24) :
    (eccVisits pParams (eccStart pParams m) 24)[k]? = some (m + k * 86) := by
  have hstart : eccStart pParams m = m := by simp only [eccStart, pParams]; omega
  rw [eccVisits_getElem? (by decide) (by rw [hstart]; simp only [pParams]; omega) hk, hstart]
  simp only [pParams, Option.some.injEq]
  omega

theorem qVisits_getElem? {m k : Nat} (hm : m < 52) (hk : k < 43) :
    (eccVisits qParams (eccStart qParams m) 43)[k]? = some ((m / 2 * 86 + m % 2 + k * 88) % 2236) :=
  eccVisits_getElem? (by decide) (by simp only [eccStart, qParams]; omega) hk

/-- Only positions inside a row hold an index. -/
theorem lt_of_eccVisits_getElem? {p : EccParams} {idx n k i : Nat} (h : (eccVisits p idx n)[k]? = some i) : k < n := by
  obtain ⟨hk, _⟩ := List.getElem?_eq_some_iff.1 h
  rwa [eccVisits_length] at hk

/-- The row and the position of a byte in the P rows. -/
theorem pVisits_eq_some_iff {m k i : Nat} (hm : m < 86) (hi : i < 2064) :
    (eccVisits pParams (eccStart pParams m) 24)[k]? = some i ↔ m = i % 86 ∧ k = i / 86 := by
  constructor
  · intro h
    rw [pVisits_getElem? hm (lt_of_eccVisits_getElem? h), Option.some.injEq] at h
    omega
  · rintro ⟨rfl, rfl⟩
    rw [pVisits_getElem? hm (by omega), Option.some.injEq]
    omega

/-- The row and the position of a byte in the Q rows. -/
theorem qVisits_eq_some_iff {m k i : Nat} (hm : m < 52) (hi : i < 2236) :
    (eccVisits qParams (eccStart qParams m) 43)[k]? = some i ↔
      m = 2 * ((i / 86 + 52 - i / 2 % 43) % 26) + i % 2 ∧ k = i / 2 % 43 := by
  constructor
  · intro h
    have hk := lt_of_eccVisits_getElem? h
    rw [qVisits_getElem? hm hk, Option.some.injEq] at h
    generalize hd : (m / 2 * 86 + m % 2 + k * 88) / 2236 = d
    have hsum : m / 2 * 86 + m % 2 + k * 88 = i + 2236 * d := by omega
    have hpos : i / 2 % 43 = k := by omega
    have hquot : i / 86 + 26 * d = m / 2 + k := by omega
    rw [hpos]
    omega
  · rintro ⟨hrow, hpos⟩
    rw [qVisits_getElem? hm (by omega), Option.some.injEq]
    generalize he : (i / 86 + 52 - i / 2 % 43) / 26 = e
    have hhalf : m / 2 + k + 26 * e = i / 86 + 52 := by omega
    have hsum : m / 2 * 86 + m % 2 + k * 88 + 2236 * e = i + 2236 * 2 := by omega
    omega

theorem lt_of_mem_pVisits {m i : Nat} (hm : m < 86) (h : i ∈ eccVisits pParams (eccStart pParams m) 24) :
    i < 2064 := by
  obtain ⟨k, hk⟩ := List.mem_iff_getElem?.1 h
  have hlt := lt_of_eccVisits_getElem? hk
  rw [pVisits_getElem? hm hlt, Option.some.injEq] at hk
  omega

theorem lt_of_mem_qVisits {m i : Nat} (hm : m < 52) (h : i ∈ eccVisits qParams (eccStart qParams m) 43) :
    i < 2236 := by
  obtain ⟨k, hk⟩ := List.mem_iff_getElem?.1 h
  rw [qVisits_getElem? hm (lt_of_eccVisits_getElem? hk), Option.some.injEq] at hk
  omega

/-! ### The logical bytes (R154) -/

theorem logicalBytes_eq (mode : TrackMode) (s : State) : logicalBytes mode s = s.parityInput mode := by
  have haddr : eccAddress mode s =
      (List.range 4).map fun i => if i < 4 ∧ mode = .cdMode2Form1 then 0#8 else s.sec (12 + i) := by
    by_cases hform : mode = .cdMode2Form1
    · rw [hform]
      rfl
    · have hsec : eccAddress mode s = s.secRun 12 4 := by
        cases mode with
        | cdMode2Form1 => exact absurd rfl hform
        | _ => rfl
      rw [hsec, State.secRun_eq_map]
      exact List.map_congr_left fun i _ => (if_neg fun h => hform h.2).symm
  have hrest : s.secRun 16 2336 = ((List.range 2336).map (4 + ·)).map fun i =>
      if i < 4 ∧ mode = .cdMode2Form1 then 0#8 else s.sec (12 + i) := by
    rw [State.secRun_eq_map, List.map_map]
    refine List.map_congr_left fun i _ => ?_
    rw [Function.comp, if_neg (by omega), ← Nat.add_assoc]
  rw [logicalBytes, State.parityInput, haddr, hrest, ← List.map_append, ← List.range_add]

theorem State.parityInput_getD (s : State) (mode : TrackMode) {i : Nat} (h : i < 2340) :
    (s.parityInput mode).getD i 0#8 = if i < 4 ∧ mode = .cdMode2Form1 then 0#8 else s.sec (12 + i) := by
  simp [State.parityInput, h]

theorem eccPair_congr {l l' : List Byte} {p : EccParams} {m : Nat}
    (h : ∀ i ∈ eccVisits p (eccStart p m) p.minorCount, l.getD i 0#8 = l'.getD i 0#8) :
    eccPair l p m = eccPair l' p m := by
  rw [eccPair, eccPair, eccRow, eccRow, List.map_congr_left h]

/-- The pair of a row that visits only indices below `bound` reads `SEC` below `12 + bound` only. -/
theorem eccPair_parityInput_congr {s t : State} (mode : TrackMode) {p : EccParams} {m bound : Nat}
    (hbound : bound ≤ 2340) (hvisits : ∀ i ∈ eccVisits p (eccStart p m) p.minorCount, i < bound)
    (h : ∀ i < 12 + bound, t.sec i = s.sec i) :
    eccPair (t.parityInput mode) p m = eccPair (s.parityInput mode) p m := by
  refine eccPair_congr fun i hi => ?_
  have hlt := hvisits i hi
  rw [State.parityInput_getD t mode (by omega), State.parityInput_getD s mode (by omega), h (12 + i) (by omega)]

/-- The P parity depends on `SEC[0..2076)` only. -/
theorem pPair_congr {s t : State} (mode : TrackMode) {m : Nat} (hm : m < 86) (h : ∀ i < 2076, t.sec i = s.sec i) :
    eccPair (t.parityInput mode) pParams m = eccPair (s.parityInput mode) pParams m :=
  eccPair_parityInput_congr mode (bound := 2064) (by decide) (fun _ hi => lt_of_mem_pVisits hm hi) h

/-- The Q parity depends on `SEC[0..2248)` only. -/
theorem qPair_congr {s t : State} (mode : TrackMode) {m : Nat} (hm : m < 52) (h : ∀ i < 2248, t.sec i = s.sec i) :
    eccPair (t.parityInput mode) qParams m = eccPair (s.parityInput mode) qParams m :=
  eccPair_parityInput_congr mode (bound := 2236) (by decide) (fun _ hi => lt_of_mem_qVisits hm hi) h

/-! ### Parity fields (R158, R159) -/

/-- A run of `SEC` is a parity field exactly when it holds the pairs of the rows, first bytes first. -/
theorem eccField_eq_secRun_iff (l : List Byte) (p : EccParams) (s : State) (a : Nat) :
    eccField l p = s.secRun a (2 * p.majorCount) ↔
      ∀ m < p.majorCount, s.sec (a + m) = (eccPair l p m).1 ∧ s.sec (a + p.majorCount + m) = (eccPair l p m).2 := by
  constructor
  · intro h m hm
    constructor
    · rw [← eccField_getD_first l p hm, h, State.secRun_getD s (by omega)]
    · rw [← eccField_getD_second l p hm, h, State.secRun_getD s (by omega), Nat.add_assoc, Nat.add_comm m]
  · intro h
    have hbyte (i : Nat) (hi : i < 2 * p.majorCount) :
        (eccField l p).getD i 0#8 = (s.secRun a (2 * p.majorCount)).getD i 0#8 := by
      rw [State.secRun_getD s hi]
      by_cases hlt : i < p.majorCount
      · rw [eccField_getD_first l p hlt, (h i hlt).1]
      · obtain ⟨m, rfl⟩ := Nat.exists_eq_add_of_le' (Nat.not_lt.1 hlt)
        have hm : m < p.majorCount := by omega
        rw [eccField_getD_second l p hm, ← (h m hm).2, Nat.add_assoc, Nat.add_comm m]
    refine List.ext_getElem (by simp) fun i h1 h2 => ?_
    have hi := hbyte i (by simpa using h1)
    rwa [List.getD_eq_getElem _ _ h1, List.getD_eq_getElem _ _ h2] at hi

theorem pField_eq_secRun_iff (mode : TrackMode) (s t : State) :
    pField mode s = t.secRun 2076 172 ↔ t.PFieldIs (eccPair (s.parityInput mode) pParams) := by
  rw [pField, logicalBytes_eq]
  exact eccField_eq_secRun_iff _ pParams t 2076

theorem qField_eq_secRun_iff (mode : TrackMode) (s t : State) :
    qField mode s = t.secRun 2248 104 ↔ t.QFieldIs (eccPair (s.parityInput mode) qParams) := by
  rw [qField, logicalBytes_eq]
  exact eccField_eq_secRun_iff _ qParams t 2248

/-- R164: the stored P field matches exactly when it is the parity of the sector. -/
theorem pMatches_iff (mode : TrackMode) (s : State) : pMatches mode s = true ↔ s.PHolds mode := by
  rw [pMatches, beq_iff_eq]
  exact pField_eq_secRun_iff mode s s

/-- R165: the stored Q field matches exactly when it is the parity of the sector. -/
theorem qMatches_iff (mode : TrackMode) (s : State) : qMatches mode s = true ↔ s.QHolds mode := by
  rw [qMatches, beq_iff_eq]
  exact qField_eq_secRun_iff mode s s

/-- Storing the P field stores its pairs. -/
theorem storeSec_pField (mode : TrackMode) (s : State) :
    (s.storeSec pFieldAt (pField mode s)).PFieldIs (eccPair (s.parityInput mode) pParams) := by
  rw [← pField_eq_secRun_iff, ← pField_length mode s]
  exact (State.store_bytes_self s _ _).symm

/-- Storing the Q field stores its pairs. -/
theorem storeSec_qField (mode : TrackMode) (s : State) :
    (s.storeSec qFieldAt (qField mode s)).QFieldIs (eccPair (s.parityInput mode) qParams) := by
  rw [← qField_eq_secRun_iff, ← qField_length mode s]
  exact (State.store_bytes_self s _ _).symm

/-- A P field stored over the bytes of a state is the parity of every state with the same bytes before it. -/
theorem State.PFieldIs.holds {mode : TrackMode} {s t : State}
    (h : t.PFieldIs (eccPair (s.parityInput mode) pParams)) (hsame : ∀ i < 2076, t.sec i = s.sec i) :
    t.PHolds mode := by
  intro m hm
  rw [pPair_congr mode hm hsame]
  exact h m hm

theorem State.QFieldIs.holds {mode : TrackMode} {s t : State}
    (h : t.QFieldIs (eccPair (s.parityInput mode) qParams)) (hsame : ∀ i < 2248, t.sec i = s.sec i) :
    t.QHolds mode := by
  intro m hm
  rw [qPair_congr mode hm hsame]
  exact h m hm

/-! ### The parity commands -/

theorem hasEcc_iff (mode : TrackMode) : hasEcc mode = true ↔ mode = .cdMode1 ∨ mode = .cdMode2Form1 := by
  cases mode <;> decide

theorem hasEcc_eq_false {mode : TrackMode} (h : mode = .audio ∨ mode = .cdMode2Formless ∨ mode = .cdMode2Form2) :
    ¬ hasEcc mode = true := by
  rcases h with rfl | rfl | rfl <;> decide

section
variable {mode : TrackMode} (s : State)

theorem exec_eccpGen (h : hasEcc mode = true) : exec (.eccpGen mode) s =
    .next ((s.storeSec pFieldAt (pField mode s)).finish 0#32 0#32 0#32 0#32) := if_pos h

theorem exec_eccqGen (h : hasEcc mode = true) : exec (.eccqGen mode) s =
    .next ((s.storeSec qFieldAt (qField mode s)).finish 0#32 0#32 0#32 0#32) := if_pos h

theorem exec_eccpChk (h : hasEcc mode = true) : exec (.eccpChk mode) s =
    .next (s.finish (flagWord (pMatches mode s)) 0#32 0#32 0#32) := if_pos h

theorem exec_eccqChk (h : hasEcc mode = true) : exec (.eccqChk mode) s =
    .next (s.finish (flagWord (qMatches mode s)) 0#32 0#32 0#32) := if_pos h

/-- R157: without an ECC the four commands raise `UnsupportedField`. -/
theorem exec_parity_of_not_hasEcc (h : ¬ hasEcc mode = true) :
    exec (.eccpGen mode) s = .next (s.failed 2#4) ∧ exec (.eccqGen mode) s = .next (s.failed 2#4) ∧
    exec (.eccpChk mode) s = .next (s.failed 2#4) ∧ exec (.eccqChk mode) s = .next (s.failed 2#4) := by
  have hraise : s.raise .unsupportedField = s.failed 2#4 := State.raise_eq_failed s _
  rw [← hraise]
  exact ⟨if_neg h, if_neg h, if_neg h, if_neg h⟩

end

end Sys2Proof.Machine

namespace Sys2Proof

open Machine

/-! ### The obligations -/

/-- Settles O34: the two foldings of a row are the pair's inputs, and the pair cancels both. -/
theorem parityRowsAreCodewords : Obligations.ParityRowsAreCodewords := by
  intro l p m
  simp only [List.foldl_append, List.foldl_cons, List.foldl_nil, eccPair_eq]
  exact eccClose_cancels _ _

/-- Settles O35: the index of a byte gives its row and its position. -/
theorem everyByteInOneRow : Obligations.EveryByteInOneRow := by
  refine ⟨fun i hi => ?_, fun i hi => ?_, fun m hm i => lt_of_mem_pVisits hm, fun m hm i => lt_of_mem_qVisits hm⟩
  · have hrow : i % 86 < 86 := Nat.mod_lt _ (by decide)
    exact ⟨i % 86, i / 86, hrow, (pVisits_eq_some_iff hrow hi).2 ⟨rfl, rfl⟩,
      fun _ _ hm' h' => (pVisits_eq_some_iff hm' hi).1 h'⟩
  · have hrow : 2 * ((i / 86 + 52 - i / 2 % 43) % 26) + i % 2 < 52 := by omega
    exact ⟨_, i / 2 % 43, hrow, (qVisits_eq_some_iff hrow hi).2 ⟨rfl, rfl⟩,
      fun _ _ hm' h' => (qVisits_eq_some_iff hm' hi).1 h'⟩

/-- Settles O36: each command is one store of its field. -/
theorem parityGenerationStoresThePairs : Obligations.ParityGenerationStoresThePairs := by
  refine fun s => ⟨fun mode hmode => ?_, fun mode hmode => ?_⟩
  · have hecc := (hasEcc_iff mode).2 hmode
    rw [exec_eccpGen s hecc, exec_eccqGen s hecc]
    refine ⟨⟨_, rfl, State.completed_finish _ .., State.sameFixed_store_finish s .., storeSec_pField mode s,
        fun off hoff => State.storeSec_byte_of_outside s ?_⟩,
      _, rfl, State.completed_finish _ .., State.sameFixed_store_finish s .., storeSec_qField mode s,
        fun off hoff => State.storeSec_byte_of_outside s ?_⟩
    · simp only [pField_length, pFieldAt]
      omega
    · simp only [qField_length, qFieldAt]
      omega
  · obtain ⟨hpgen, hqgen, _⟩ := exec_parity_of_not_hasEcc s (hasEcc_eq_false hmode)
    exact ⟨hpgen, hqgen⟩

/-- Settles O37: the flags are `pMatches` and `qMatches`. -/
theorem parityCheckCompares : Obligations.ParityCheckCompares := by
  refine fun s => ⟨fun mode hmode => ?_, fun mode hmode => ?_⟩
  · have hecc := (hasEcc_iff mode).2 hmode
    exact ⟨⟨pMatches mode s, pMatches_iff mode s, exec_eccpChk s hecc⟩,
      qMatches mode s, qMatches_iff mode s, exec_eccqChk s hecc⟩
  · obtain ⟨_, _, hpchk, hqchk⟩ := exec_parity_of_not_hasEcc s (hasEcc_eq_false hmode)
    exact ⟨hpchk, hqchk⟩

/-- Settles O38: a field is stored behind the bytes its rows visit, so it is still the parity of the sector. -/
theorem generatedParityChecks : Obligations.GeneratedParityChecks := by
  intro mode s t hmode
  have hecc := (hasEcc_iff mode).2 hmode
  refine ⟨fun h => ?_, fun h => ?_⟩
  · rw [exec_eccpGen s hecc] at h
    have hholds : t.PHolds mode := by
      rw [← Host.Outcome.next.inj h]
      exact State.PFieldIs.holds (storeSec_pField mode s) fun i hi => State.storeSec_sec_of_outside s (.inl hi)
    exact ⟨_, exec_eccpChk t hecc, by rw [State.finish_res0, (pMatches_iff mode t).2 hholds]; rfl⟩
  · rw [exec_eccqGen s hecc] at h
    have hholds : t.QHolds mode := by
      rw [← Host.Outcome.next.inj h]
      exact State.QFieldIs.holds (storeSec_qField mode s) fun i hi => State.storeSec_sec_of_outside s (.inl hi)
    exact ⟨_, exec_eccqChk t hecc, by rw [State.finish_res0, (qMatches_iff mode t).2 hholds]; rfl⟩

end Sys2Proof
end

section
/-! PROOFS. The families `43_bcd_timecode.md`, continued (R222 to R228), and `45_layout.md` (R270 to R274).

Up to 99 a BCD byte is the number `v / 10 * 16 + v % 10`, so the laws of R228 are arithmetic on digits; every time the
block can write has its three parts below 100. The layout table is a finite map, and its statements are read off it. -/

namespace Sys2Proof.Machine

/-! ### BCD bytes (R221) as numbers -/

theorem toBcd_toNat_eq {v : Nat} (h : v ≤ 99) : (toBcd v).toNat = v / 10 * 16 + v % 10 := by
  rw [toBcd_toNat h, ← Nat.shiftLeft_add_eq_or_of_lt (show v % 10 < 2 ^ 4 by omega), Nat.shiftLeft_eq]

theorem fromBcd_toBcd {v : Nat} (h : v ≤ 99) : fromBcd (toBcd v) = v := by
  rw [fromBcd_eq, toBcd_toNat_eq h]
  omega

theorem bcdValid_toBcd {v : Nat} (h : v ≤ 99) : bcdValid (toBcd v) = true := by
  rw [bcdValid_iff, toBcd_toNat_eq h]
  omega

theorem toBcd_fromBcd {b : Byte} (h : bcdValid b = true) : toBcd (fromBcd b) = b := by
  obtain ⟨hhigh, hlow⟩ := (bcdValid_iff b).1 h
  apply BitVec.eq_of_toNat_eq
  rw [fromBcd_eq, toBcd_toNat_eq (by omega)]
  omega

/-- Below 10 a BCD byte is the number itself. -/
theorem toBcd_of_lt {v : Nat} (h : v < 10) : toBcd v = BitVec.ofNat 8 v := by
  apply BitVec.eq_of_toNat_eq
  rw [toBcd_toNat_eq (by omega), BitVec.toNat_ofNat]
  omega

/-- A BCD byte in a result register. -/
theorem zero_append_toBcd {v : Nat} (h : v ≤ 99) :
    (0#24 ++ toBcd v : Word) = BitVec.ofNat 32 (v / 10 * 16 + v % 10) := by
  apply BitVec.eq_of_toNat_eq
  rw [zero_append_byte_24, BitVec.toNat_setWidth, toBcd_toNat_eq h, BitVec.toNat_ofNat]

theorem flagWord_eq (b : Bool) : flagWord b = if b = true then 1#32 else 0#32 := by cases b <;> rfl

/-! ### Times (R222, R223) -/

theorem msf_minute (n : Nat) : (msf n).minute = n / 4500 := rfl

theorem msf_second (n : Nat) : (msf n).second = n / 75 % 60 := rfl

theorem msf_frame (n : Nat) : (msf n).frame = n % 75 := rfl

/-- R222: the three parts of a time that BCD can write, and the frame count they make up. -/
theorem msf_bounds {n : Nat} (h : n ≤ 449999) : (msf n).minute ≤ 99 ∧ (msf n).second ≤ 59 ∧ (msf n).frame ≤ 74 ∧
    ((msf n).minute * 60 + (msf n).second) * 75 + (msf n).frame = n := by
  rw [msf_minute, msf_second, msf_frame]
  omega

theorem lbaOfMsf_msf {n : Nat} (h : n ≤ 449999) : lbaOfMsf (msf n) = (n : Int) - 150 := by
  obtain ⟨_, _, _, hn⟩ := msf_bounds h
  rw [lbaOfMsf, hn]

theorem hasTime_iff (n : Int) : hasTime n = true ↔ 0 ≤ n ∧ n ≤ 449999 := by
  rw [hasTime, Bool.and_eq_true, decide_eq_true_eq, decide_eq_true_eq]
  exact Iff.rfl

/-! ### The commands -/

theorem exec_bcd2bin (s : State) : exec .bcd2bin s = .next (s.finish (BitVec.ofNat 32 (fromBcd (s.argByte 0 0)))
    (flagWord (bcdValid (s.argByte 0 0))) 0#32 0#32) := rfl

theorem exec_msf2lba (s : State) : exec .msf2lba s = .next (s.finish
    (BitVec.ofInt 32 (lbaOfMsf ⟨fromBcd (s.argByte 0 0), fromBcd (s.argByte 0 8), fromBcd (s.argByte 0 16)⟩))
    (flagWord (timeValid (s.argByte 0 0) (s.argByte 0 8) (s.argByte 0 16))) 0#32 0#32) := rfl

section
variable {s : State}

theorem exec_bin2bcd_of_le (h : s.arg0.toNat ≤ 99) :
    exec .bin2bcd s = .next (s.finish (0#24 ++ toBcd s.arg0.toNat) 0#32 0#32 0#32) :=
  if_neg (show ¬ s.arg0.toNat > 99 from Nat.not_lt.2 h)

theorem exec_bin2bcd_of_lt (h : 99 < s.arg0.toNat) : exec .bin2bcd s = .next (s.raise .invalidInput) := if_pos h

/-- LBA2MSF on an LBA that has a time, in terms of its frame count. -/
theorem exec_lba2msf_of_frames {n : Nat} (hn : s.arg0.toInt + 150 = n) (h : n ≤ 449999) :
    exec .lba2msf s = .next (s.finish
      (packBytes (toBcd (msf n).frame) (toBcd (msf n).second) (toBcd (msf n).minute))
      (packBytes (BitVec.ofNat 8 (msf n).frame) (BitVec.ofNat 8 (msf n).second) (BitVec.ofNat 8 (msf n).minute))
      0#32 0#32) := by
  have hframes : framesOf (s.argS 0) = n := hn
  rw [exec, execLba2msf, hframes]
  exact if_pos ((hasTime_iff n).2 (by omega))

theorem exec_lba2msf_of_not_hasTime (h : ¬ hasTime (s.arg0.toInt + 150) = true) :
    exec .lba2msf s = .next (s.raise .invalidInput) :=
  if_neg h

/-- LBA2MSF completes exactly on the LBAs that have a time. -/
theorem hasTime_of_lba2msf {t : State} (h : exec .lba2msf s = .next t) (he : t.err = 0#4) :
    hasTime (s.arg0.toInt + 150) = true := by
  by_contra hno
  rw [exec_lba2msf_of_not_hasTime hno] at h
  rw [← Host.Outcome.next.inj h, State.raise_err] at he
  exact errorCode_ne_zero _ he

end

theorem fromBcd_le (b : Byte) : fromBcd b ≤ 165 := by
  rw [fromBcd_eq]
  have := b.isLt
  omega

/-- The result of MSF2LBA fits a register as a signed number, whatever the three bytes. -/
theorem toInt_ofInt_lbaOfMsf (m sec f : Byte) :
    (BitVec.ofInt 32 (lbaOfMsf ⟨fromBcd m, fromBcd sec, fromBcd f⟩)).toInt =
      ((fromBcd m * 60 + fromBcd sec) * 75 + fromBcd f : Nat) - (150 : Int) := by
  have hm := fromBcd_le m
  have hs := fromBcd_le sec
  have hf := fromBcd_le f
  rw [BitVec.toInt_ofInt, lbaOfMsf]
  dsimp only
  exact Int.bmod_eq_of_le (by omega) (by omega)

theorem timeValid_iff (m sec f : Byte) : timeValid m sec f = true ↔
    bcdValid m = true ∧ bcdValid sec = true ∧ bcdValid f = true ∧ fromBcd sec < 60 ∧ fromBcd f < 75 := by
  simp only [timeValid, Bool.and_eq_true, decide_eq_true_eq, and_assoc]

/-- R228, law 4, on the bytes LBA2MSF writes. -/
theorem timeValid_msf {n : Nat} (h : n ≤ 449999) :
    timeValid (toBcd (msf n).minute) (toBcd (msf n).second) (toBcd (msf n).frame) = true := by
  obtain ⟨hm, hs, hf, _⟩ := msf_bounds h
  rw [timeValid_iff, fromBcd_toBcd (by omega), fromBcd_toBcd (by omega)]
  exact ⟨bcdValid_toBcd hm, bcdValid_toBcd (by omega), bcdValid_toBcd (by omega), by omega, by omega⟩

/-- MSF2LBA on the bytes of a time gives its LBA and `valid`. -/
theorem exec_msf2lba_of_packBytes {s : State} {n : Nat} (hn : n ≤ 449999)
    (h : s.arg0 = packBytes (toBcd (msf n).frame) (toBcd (msf n).second) (toBcd (msf n).minute)) :
    exec .msf2lba s = .next (s.finish (BitVec.ofInt 32 ((n : Int) - 150)) 1#32 0#32 0#32) := by
  obtain ⟨hm, hs, hf, _⟩ := msf_bounds hn
  have hminute : s.argByte 0 0 = toBcd (msf n).minute := by rw [State.argByte, State.arg_zero, h, packBytes_low]
  have hsecond : s.argByte 0 8 = toBcd (msf n).second := by rw [State.argByte, State.arg_zero, h, packBytes_middle]
  have hframe : s.argByte 0 16 = toBcd (msf n).frame := by rw [State.argByte, State.arg_zero, h, packBytes_high]
  rw [exec_msf2lba, hminute, hsecond, hframe, timeValid_msf hn, fromBcd_toBcd hm, fromBcd_toBcd (by omega),
    fromBcd_toBcd (by omega), lbaOfMsf_msf hn, flagWord_eq, if_pos rfl]

/-! ### LAYOUT (R273) -/

theorem exec_layout_of_some {mode : TrackMode} {tag : FieldTag} {e : FieldLayout} (h : fieldLayout mode tag = some e)
    (s : State) : exec (.layout mode tag) s = .next
      (s.finish (BitVec.ofNat 32 e.offset) (BitVec.ofNat 32 e.length) (BitVec.ofNat 32 e.skip) 0#32) := by
  rw [exec, execLayout, h]

theorem exec_layout_of_none {mode : TrackMode} {tag : FieldTag} (h : fieldLayout mode tag = none) (s : State) :
    exec (.layout mode tag) s = .next (s.raise .unsupportedField) := by
  rw [exec, execLayout, h]

end Sys2Proof.Machine

namespace Sys2Proof

open Machine

/-! ### The obligations on times -/

/-- Settles O47: the byte is `ARG0` modulo 256. -/
theorem bcd2binConverts : Obligations.Bcd2binConverts := by
  intro s
  have hbyte : (s.argByte 0 0).toNat = s.arg0.toNat % 256 := by
    rw [State.argByte, BitVec.extractLsb'_toNat, Nat.shiftRight_zero, State.arg_zero]
  have hvalue : fromBcd (s.argByte 0 0) = s.arg0.toNat / 16 % 16 * 10 + s.arg0.toNat % 16 := by
    rw [fromBcd_eq, hbyte]
    omega
  have hvalid : flagWord (bcdValid (s.argByte 0 0)) =
      if s.arg0.toNat / 16 % 16 ≤ 9 ∧ s.arg0.toNat % 16 ≤ 9 then 1#32 else 0#32 := by
    rw [flagWord_eq]
    exact if_congr (by rw [bcdValid_iff, hbyte]; omega) rfl rfl
  rw [exec_bcd2bin, hvalue, hvalid, State.finish_eq]

/-- Settles O48: by the range check. -/
theorem bin2bcdConverts : Obligations.Bin2bcdConverts := by
  refine fun s => ⟨fun h => ?_, fun h => ?_⟩
  · rw [exec_bin2bcd_of_le h, zero_append_toBcd h, State.finish_eq]
  · rw [exec_bin2bcd_of_lt h, State.raise_eq_failed]
    rfl

/-- Settles O49: the range check is that of `hasTime`, and the parts of the time are those of `msf`. -/
theorem lba2msfConverts : Obligations.Lba2msfConverts := by
  refine fun s => ⟨fun hlo hhi => ?_, fun h => ?_⟩
  · obtain ⟨n, hn⟩ := Int.eq_ofNat_of_zero_le (show 0 ≤ s.arg0.toInt + 150 by omega)
    exact ⟨n, hn.symm, exec_lba2msf_of_frames hn (by omega)⟩
  · rw [exec_lba2msf_of_not_hasTime (by rw [hasTime_iff]; omega), State.raise_eq_failed]
    rfl

/-- Settles O50: the LBA fits 32 bits, and the flag is `timeValid`. -/
theorem msf2lbaConverts : Obligations.Msf2lbaConverts := by
  intro s
  refine ⟨_, exec_msf2lba s, toInt_ofInt_lbaOfMsf _ _ _, ⟨rfl, ?_, rfl, rfl, rfl, rfl⟩,
    commandsKeepArguments .msf2lba s _ (exec_msf2lba s), fun off => rfl⟩
  rw [State.finish_res1, flagWord_eq]
  exact if_congr (timeValid_iff _ _ _) rfl rfl

/-- Settles O51: digits below 10 and times below 100 minutes survive both conversions. -/
theorem timecodeLaws : Obligations.TimecodeLaws := by
  refine ⟨fun v hv => ⟨fromBcd_toBcd hv, bcdValid_toBcd hv⟩, fun b => toBcd_fromBcd, fun n => msf_bounds,
    fun lba hlo hhi => ?_, fun s t h he => ?_, fun v => toBcd_of_lt, rfl⟩
  · rw [lbaOfMsf_msf (by omega)]
    omega
  · obtain ⟨hlo, hhi⟩ := (hasTime_iff _).1 (hasTime_of_lba2msf h he)
    obtain ⟨n, hn⟩ := Int.eq_ofNat_of_zero_le hlo
    rw [exec_lba2msf_of_frames hn (by omega)] at h
    have hres : t.res0 = packBytes (toBcd (msf n).frame) (toBcd (msf n).second) (toBcd (msf n).minute) := by
      rw [← Host.Outcome.next.inj h, State.finish_res0]
    have hlba : (n : Int) - 150 = s.arg0.toInt := by omega
    refine ⟨_, exec_msf2lba_of_packBytes (s := { t with arg0 := t.res0 }) (by omega) hres, ?_, rfl⟩
    rw [State.finish_res0, hlba, BitVec.ofInt_toInt]

/-! ### The obligations on the layout -/

/-- Settles O58: the table's entries are the supported ones, and there are no others. -/
theorem layoutLooksUpTheTable : Obligations.LayoutLooksUpTheTable := by
  unfold Obligations.LayoutLooksUpTheTable
  intro table
  have hentries : ∀ e ∈ table, fieldLayout e.1 e.2.1 = some ⟨e.2.2.1, e.2.2.2.1, e.2.2.2.2⟩ := by decide
  have hothers : ∀ mode tag, (∃ e ∈ table, e.1 = mode ∧ e.2.1 = tag) ∨ fieldLayout mode tag = none := by
    intro mode tag
    cases mode <;> cases tag <;> decide
  refine ⟨fun s e he => ?_, fun s mode tag hnot => ?_⟩
  · rw [exec_layout_of_some (hentries e he), State.finish_eq]
  · have hnone := (hothers mode tag).resolve_left fun ⟨e, he, heq⟩ => hnot e he heq
    rw [exec_layout_of_none hnone, State.raise_eq_failed]
    rfl

/-- Settles O59: entry by entry. -/
theorem layoutSumsToTheSector : Obligations.LayoutSumsToTheSector := by
  intro mode tag e h
  cases mode <;> cases tag <;> cases h <;> decide

/-- Settles O60: the rows of the statements and the modes of `edcField`, one by one. -/
theorem layoutAgreesWithTheEngine : Obligations.LayoutAgreesWithTheEngine := by
  refine ⟨fun mode lo n p h => ?_, ?_, fun mode h => ?_⟩
  · simp only [edcRows, List.mem_cons, Prod.mk.injEq, List.not_mem_nil, or_false] at h
    rcases h with ⟨rfl, rfl, rfl, rfl⟩ | ⟨rfl, rfl, rfl, rfl⟩ | ⟨rfl, rfl, rfl, rfl⟩
    exacts [⟨_, rfl⟩, ⟨_, rfl⟩, ⟨_, rfl⟩]
  · rintro mode (rfl | rfl)
    exacts [⟨rfl, rfl⟩, ⟨rfl, rfl⟩]
  · cases mode with
    | audio | cdMode2Formless => rfl
    | cdMode1 | cdMode2Form1 | cdMode2Form2 => cases h

end Sys2Proof
end

section
/-! PROOFS. The family `42_subchannel.md`: the interleaver (R181 to R185), the Q record (R186 to R194), and SUB.GEN
(R196, R197).

Interleaving is a permutation of the 768 bits, said once in each direction as an equation of bits. The Q record is a
list of twelve bytes; a state that holds them at `SUBD[12..24)` holds the record of the statements, whichever command
stored it. -/

namespace Sys2Proof.Machine

/-! ### The interleaver, bit by bit -/

theorem deint_bit (raw : List Byte) {c j k : Nat} (hc : c < 8) (hj : j < 12) (hk : k < 8) :
    ((deint raw).getD (12 * c + j) 0#8).getLsbD (7 - k) = (raw.getD (8 * j + k) 0#8).getLsbD (7 - c) := by
  rw [deint_getD raw (by omega), byteOfBits_getLsbD _ hk, show (12 * c + j) % 12 = j by omega,
    show (12 * c + j) / 12 = c by omega]

theorem inter_bit (flat : List Byte) {c j k : Nat} (hc : c < 8) (hj : j < 12) (hk : k < 8) :
    ((inter flat).getD (8 * j + k) 0#8).getLsbD (7 - c) = (flat.getD (12 * c + j) 0#8).getLsbD (7 - k) := by
  rw [inter_getD flat (by omega), byteOfBits_getLsbD _ hc, show (8 * j + k) % 8 = k by omega,
    show (8 * j + k) / 8 = j by omega]

/-- Bytes are equal when their bits are, counted from the top. -/
theorem byte_eq_of_bits {a b : Byte} (h : ∀ k < 8, a.getLsbD (7 - k) = b.getLsbD (7 - k)) : a = b := by
  apply BitVec.eq_of_getLsbD_eq
  intro i hi
  have hbit := h (7 - i) (by omega)
  rwa [show 7 - (7 - i) = i by omega] at hbit

theorem list_eq_of_getD {l l' : List Byte} (hlen : l.length = l'.length)
    (h : ∀ n < l.length, l.getD n 0#8 = l'.getD n 0#8) : l = l' := by
  refine List.ext_getElem hlen fun n h1 h2 => ?_
  have hn := h n h1
  rwa [List.getD_eq_getElem _ _ h1, List.getD_eq_getElem _ _ h2] at hn

theorem inter_deint {b : List Byte} (h : b.length = 96) : inter (deint b) = b := by
  refine list_eq_of_getD (by rw [inter_length, h]) fun n hn => byte_eq_of_bits fun c hc => ?_
  rw [inter_length] at hn
  have hbit := inter_bit (deint b) hc (show n / 8 < 12 by omega) (show n % 8 < 8 by omega)
  rw [deint_bit b hc (by omega) (by omega)] at hbit
  rwa [show 8 * (n / 8) + n % 8 = n by omega] at hbit

theorem deint_inter {b : List Byte} (h : b.length = 96) : deint (inter b) = b := by
  refine list_eq_of_getD (by rw [deint_length, h]) fun n hn => byte_eq_of_bits fun k hk => ?_
  rw [deint_length] at hn
  have hbit := deint_bit (inter b) (show n / 12 < 8 by omega) (show n % 12 < 12 by omega) hk
  rw [inter_bit b (by omega) (by omega) hk] at hbit
  rwa [show 12 * (n / 12) + n % 12 = n by omega] at hbit

/-! ### The Q record (R192) -/

/-- A state that holds the twelve bytes of a record holds the record. -/
theorem holdsQRecord_of_bytes {t : State} {n rel track index : Nat} {control : BitVec 4}
    (h : ∀ i < 12, t.subd (12 + i) = (qRecord t.cfg.crc16Variant n rel control track index).getD i 0#8) :
    t.HoldsQRecord n rel control track index (crc16 t.cfg.crc16Variant (qPrefix n rel control track index)) := by
  have hbytes : t.qBytes 10 = qPrefix n rel control track index :=
    (List.map_congr_left fun i hi => h i (by have := List.mem_range.1 hi; omega)).trans rfl
  exact ⟨h 0 (by decide), h 1 (by decide), h 2 (by decide), h 3 (by decide), h 4 (by decide), h 5 (by decide),
    h 6 (by decide), h 7 (by decide), h 8 (by decide), h 9 (by decide), by rw [hbytes], h 10 (by decide),
    h 11 (by decide)⟩

/-- R193, R196: the operand check in the statements' terms. -/
theorem qOperandsOk_iff (n rel : Int) (track index : Nat) : qOperandsOk n rel track index = true ↔
    track ≤ 99 ∧ index ≤ 99 ∧ rel ≤ 449999 ∧ 0 ≤ n ∧ n ≤ 449999 := by
  rw [qOperandsOk, Bool.and_eq_true, Bool.and_eq_true, Bool.and_eq_true, decide_eq_true_eq, decide_eq_true_eq,
    decide_eq_true_eq, hasTime_iff, and_assoc, and_assoc]
  exact Iff.rfl

/-! ### Q.PARSE -/

/-- The `adr` field of the record in `SUBD` (R188). -/
def State.qAdr (s : State) : BitVec 4 := (s.qb 0).extractLsb' 0 4

/-- `v(i)` of the record in `SUBD` (R188). -/
def State.qRead (s : State) (bcd : Bool) (i : Nat) : Byte := qValue (qConverted bcd s.qAdr) (s.qb i)

/-- Q.PARSE in these terms. -/
theorem exec_qParse (bcd : Bool) (s : State) : exec (.qParse bcd) s = .next (s.finish
    (qFlags (qCrc s) (qConverted bcd s.qAdr) (qCrc s == qStored s) (adrKnown s.qAdr) (area (s.argS 0) (s.qb 1))
      ((s.qb 0).extractLsb' 4 4) s.qAdr)
    (packBytes (s.qb 6) (s.qRead bcd 2) (s.qRead bcd 1))
    (packBytes (s.qRead bcd 5) (s.qRead bcd 4) (s.qRead bcd 3))
    (packBytes (s.qRead bcd 9) (s.qRead bcd 8) (s.qRead bcd 7))) := rfl

theorem qCrc_eq (s : State) : qCrc s = crc16 s.cfg.crc16Variant (s.qBytes 10) := by
  rw [State.qBytes_eq, qCrc, qAt]

/-- A number that BCD can write is read back from its digits. -/
theorem qValue_toBcd {v : Nat} (h : v ≤ 99) : qValue true (toBcd v) = BitVec.ofNat 8 v := by
  rw [qValue, if_pos rfl, fromBcd_toBcd h]

theorem lowNibble_append (a b : BitVec 4) : (a ++ b : Byte).extractLsb' 0 4 = b := by
  apply BitVec.eq_of_getLsbD_eq
  intro i hi
  rw [BitVec.getLsbD_extractLsb', BitVec.getLsbD_append]
  simp [hi]

theorem highNibble_append (a b : BitVec 4) : (a ++ b : Byte).extractLsb' 4 4 = a := by
  apply BitVec.eq_of_getLsbD_eq
  intro i hi
  rw [BitVec.getLsbD_extractLsb', BitVec.getLsbD_append]
  simp [hi]

/-- R189: a track number in BCD is never that of the lead-out. -/
theorem toBcd_ne_leadOut {v : Nat} (h : v ≤ 99) : toBcd v ≠ 0xAA#8 := by
  intro heq
  have hnat := congrArg BitVec.toNat heq
  rw [toBcd_toNat_eq h, show (0xAA#8).toNat = 170 from rfl] at hnat
  omega

/-- Q.PARSE with `bcd = 1` on a held record: ADR 1 is known and converted, the CRC is right, and every value is read
back. -/
theorem exec_qParse_of_record {t : State} {n rel track index : Nat} {control : BitVec 4} {crc : Half}
    (h : t.HoldsQRecord n rel control track index crc) (htrack : track ≤ 99) (hindex : index ≤ 99)
    (hrel : rel ≤ 449999) (hn : n ≤ 449999) : exec (.qParse true) t = .next (t.finish
      (qFlags crc true true true (if t.argS 0 < 0 then 1#2 else 0#2) control 1#4)
      (packBytes 0x00#8 (BitVec.ofNat 8 index) (BitVec.ofNat 8 track))
      (packBytes (BitVec.ofNat 8 (rel % 75)) (BitVec.ofNat 8 (rel / 75 % 60)) (BitVec.ofNat 8 (rel / 4500)))
      (packBytes (BitVec.ofNat 8 (n % 75)) (BitVec.ofNat 8 (n / 75 % 60)) (BitVec.ofNat 8 (n / 4500)))) := by
  obtain ⟨h0, h1, h2, h3, h4, h5, h6, h7, h8, h9, hcrc, h10, h11⟩ := h
  have hadr : t.qAdr = 1#4 := by rw [State.qAdr, State.qb, qAt, h0, lowNibble_append]
  have hcontrol : (t.qb 0).extractLsb' 4 4 = control := by rw [State.qb, qAt, h0, highNibble_append]
  have hcalc : qCrc t = crc := by rw [qCrc_eq, hcrc]
  have hstored : qStored t = crc := by rw [qStored, State.qb, State.qb, qAt, h10, h11, halfBytes_append]
  have harea : area (t.argS 0) (t.qb 1) = if t.argS 0 < 0 then 1#2 else 0#2 := by
    rw [area, if_neg (c := t.qb 1 = 0xAA#8) (by rw [State.qb, qAt, h1]; exact toBcd_ne_leadOut htrack)]
  have hread (i : Nat) {v : Nat} (hi : t.qb i = toBcd v) (hv : v ≤ 99) : t.qRead true i = BitVec.ofNat 8 v := by
    have hconv : qConverted true 1#4 = true := rfl
    rw [State.qRead, hadr, hconv, hi, qValue_toBcd hv]
  have hzero : t.qb 6 = 0x00#8 := h6
  rw [exec_qParse, hadr, hcontrol, hcalc, hstored, harea, beq_self_eq_true, hzero, hread 1 h1 htrack, hread 2 h2 hindex,
    hread 3 h3 (by omega), hread 4 h4 (by omega), hread 5 h5 (by omega), hread 7 h7 (by omega), hread 8 h8 (by omega),
    hread 9 h9 (by omega)]
  rfl

/-! ### Q.BUILD -/

section
variable {s : State}

/-- The operand check of Q.BUILD (R193). -/
def qBuildOperands (s : State) : Bool :=
  qOperandsOk (s.arg0.toInt + 150) s.arg1.toNat (s.arg2.extractLsb' 8 8).toNat (s.arg2.extractLsb' 0 8).toNat

theorem exec_qBuild_of_ok (h : qBuildOperands s = true) : exec .qBuild s = .next
    ((s.storeSubd qAt (qRecord s.cfg.crc16Variant (s.arg0.toInt + 150).toNat s.arg1.toNat (s.arg2.extractLsb' 16 4)
      (s.arg2.extractLsb' 8 8).toNat (s.arg2.extractLsb' 0 8).toNat)).finish
      (0#16 ++ crc16 s.cfg.crc16Variant (qPrefix (s.arg0.toInt + 150).toNat s.arg1.toNat (s.arg2.extractLsb' 16 4)
        (s.arg2.extractLsb' 8 8).toNat (s.arg2.extractLsb' 0 8).toNat)) 0#32 0#32 0#32) :=
  if_pos h

theorem exec_qBuild_of_not_ok (h : ¬ qBuildOperands s = true) : exec .qBuild s = .next (s.raise .invalidInput) :=
  if_neg h

/-- Q.BUILD completes exactly on operands that BCD can write. -/
theorem qBuildOperands_of_exec {t : State} (h : exec .qBuild s = .next t) (he : t.err = 0#4) :
    qBuildOperands s = true := by
  by_contra hno
  rw [exec_qBuild_of_not_ok hno] at h
  rw [← Host.Outcome.next.inj h, State.raise_err] at he
  exact errorCode_ne_zero _ he

end

/-! ### SUB.GEN -/

/-- The end of the pregap SUB.GEN works with (R197). -/
def State.pregapStop (s : State) : Int := pregapEnd s.cfg.pregapModel (s.argS 1) (s.argU 2)

/-- The relative time of SUB.GEN in frames (R196). -/
def State.relFrames (s : State) : Int :=
  if s.arg0.toInt < s.pregapStop then s.pregapStop - s.arg0.toInt else s.arg0.toInt - s.pregapStop

/-- The operand check of SUB.GEN (R196). -/
def subGenOperands (s : State) : Bool :=
  qOperandsOk (s.arg0.toInt + 150) s.relFrames (s.arg3.extractLsb' 8 8).toNat (s.arg3.extractLsb' 0 8).toNat

/-- The 96 bytes SUB.GEN writes into `SUBD` (R196). -/
def State.subGenFlat (s : State) : List Byte :=
  List.replicate 12 (if s.arg0.toInt < s.pregapStop then 0xFF#8 else 0x00#8) ++
    qRecord s.cfg.crc16Variant (s.arg0.toInt + 150).toNat s.relFrames.toNat (s.arg3.extractLsb' 16 4)
      (s.arg3.extractLsb' 8 8).toNat (s.arg3.extractLsb' 0 8).toNat ++
    List.replicate 72 0x00#8

/-- The CRC of the record SUB.GEN writes. -/
def State.subGenCrc (s : State) : Half :=
  crc16 s.cfg.crc16Variant (qPrefix (s.arg0.toInt + 150).toNat s.relFrames.toNat (s.arg3.extractLsb' 16 4)
    (s.arg3.extractLsb' 8 8).toNat (s.arg3.extractLsb' 0 8).toNat)

/-- SUB.GEN in these terms. -/
theorem exec_subGen (s : State) : exec .subGen s =
    if subGenOperands s = true then
      .next (((s.storeSubd 0 s.subGenFlat).storeSubr (inter s.subGenFlat)).finish
        (subGenFlags (decide (s.arg0.toInt < s.pregapStop)) s.subGenCrc) 0#32 0#32 0#32)
    else .next (s.raise .invalidInput) := by
  rw [exec, execSubGen]
  simp only [decide_eq_true_eq]
  rfl

theorem State.subGenFlat_length (s : State) : s.subGenFlat.length = 96 := by
  simp [State.subGenFlat]

theorem State.subGenFlat_channelP (s : State) {i : Nat} (h : i < 12) :
    s.subGenFlat.getD i 0#8 = if s.arg0.toInt < s.pregapStop then 0xFF#8 else 0x00#8 := by
  rw [State.subGenFlat, List.append_assoc, List.getD_append _ _ _ _ (by simpa using h),
    List.getD_replicate (h := h)]

theorem State.subGenFlat_record (s : State) {i : Nat} (h : i < 12) : s.subGenFlat.getD (12 + i) 0#8 =
    (qRecord s.cfg.crc16Variant (s.arg0.toInt + 150).toNat s.relFrames.toNat (s.arg3.extractLsb' 16 4)
      (s.arg3.extractLsb' 8 8).toNat (s.arg3.extractLsb' 0 8).toNat).getD i 0#8 := by
  rw [State.subGenFlat, List.append_assoc, List.getD_append_right _ _ _ _ (by simp), List.length_replicate,
    Nat.add_sub_cancel_left, List.getD_append _ _ _ _ (by simpa using h)]

theorem State.subGenFlat_zeros (s : State) {i : Nat} (hlo : 24 ≤ i) (hhi : i < 96) :
    s.subGenFlat.getD i 0#8 = 0x00#8 := by
  rw [State.subGenFlat, List.getD_append_right _ _ _ _ (by simpa using hlo), List.getD_replicate]
  simp
  omega

/-- The two stores of a window: `SUBD` holds the bytes, `SUBR` their interleaving, and every other byte is as before. -/
theorem subGen_window (s : State) {flat : List Byte} (hlen : flat.length = 96) (t : State)
    (hmem : ∀ off, t.byte off = ((s.storeSubd 0 flat).storeSubr (inter flat)).byte off) :
    (∀ i < 96, t.subd i = flat.getD i 0#8) ∧
    (∀ c < 8, ∀ j < 12, ∀ k < 8,
      (t.subr (8 * j + k)).getLsbD (7 - c) = (t.subd (12 * c + j)).getLsbD (7 - k)) ∧
    (∀ off, (off < 0x2000 ∨ (0x2060 ≤ off ∧ off < 0x2080) ∨ 0x20E0 ≤ off) → t.byte off = s.byte off) := by
  have hsubd : ∀ i < 96, t.subd i = flat.getD i 0#8 := by
    intro i hi
    rw [State.subd, hmem, State.storeSubr, State.store_byte_of_outside _ (by
      simp only [inter_length, subdBase, subrBase]; omega)]
    exact State.storeSubd_subd_of_mem s (Nat.zero_le i) (by omega)
  have hsubr : ∀ i < 96, t.subr i = (inter flat).getD i 0#8 := by
    intro i hi
    rw [State.subr, hmem]
    exact State.storeSubr_subr_of_mem _ (by rwa [inter_length])
  refine ⟨hsubd, fun c hc j hj k hk => ?_, fun off hoff => ?_⟩
  · rw [hsubr _ (by omega), hsubd _ (by omega), inter_bit flat hc hj hk]
  · rw [hmem, State.storeSubr, State.store_byte_of_outside _ (by
      simp only [inter_length, subrBase]; omega), State.storeSubd, State.store_byte_of_outside _ (by
      simp only [hlen, subdBase]; omega)]

end Sys2Proof.Machine

namespace Sys2Proof

open Machine

/-! ### The obligations -/

/-- Settles O39: the store of the deinterleaved bytes, read bit by bit. -/
theorem deinterleaveBitByBit : Obligations.DeinterleaveBitByBit := by
  intro s
  refine ⟨_, rfl, State.completed_finish _ .., State.sameFixed_store_finish s .., fun c hc j hj k hk => ?_,
    fun off hoff => ?_⟩
  · have hread : (s.storeSubd 0 (deint s.subrAll)).subd (12 * c + j) = (deint s.subrAll).getD (12 * c + j) 0#8 :=
      State.storeSubd_subd_of_mem s (Nat.zero_le _) (by rw [deint_length]; omega)
    rw [← State.subrAll_getD s (by omega), ← deint_bit s.subrAll hc hj hk, ← hread]
    rfl
  · exact State.store_byte_of_outside s (by simp only [deint_length, subdBase]; omega)

/-- Settles O40: the store of the interleaved bytes, read bit by bit. -/
theorem interleaveBitByBit : Obligations.InterleaveBitByBit := by
  intro s
  refine ⟨_, rfl, State.completed_finish _ .., State.sameFixed_store_finish s .., fun c hc j hj k hk => ?_,
    fun off hoff => ?_⟩
  · have hread : (s.storeSubr (inter (s.subdRun 0 96))).subr (8 * j + k) =
        (inter (s.subdRun 0 96)).getD (8 * j + k) 0#8 :=
      State.storeSubr_subr_of_mem s (by rw [inter_length]; omega)
    have hsource : (s.subdRun 0 96).getD (12 * c + j) 0#8 = s.subd (12 * c + j) := by
      rw [State.subdRun_getD s (by omega), Nat.zero_add]
    rw [← hsource, ← inter_bit (s.subdRun 0 96) hc hj hk, ← hread]
    rfl
  · exact State.store_byte_of_outside s (by simp only [inter_length, subrBase]; omega)

/-- Settles O41: bit by bit, each function undoes the other. -/
theorem interleaveRoundTrip : Obligations.InterleaveRoundTrip :=
  fun _ h => ⟨inter_deint h, deint_inter h⟩

/-- Settles O42: the command with its flags and values written out, over the record's bytes read one by one. -/
theorem qParseReadsTheRecord : Obligations.QParseReadsTheRecord := by
  intro bcd s
  rw [exec_qParse, qCrc_eq]
  rfl

/-- Settles O43: a store of the record's twelve bytes. -/
theorem qBuildWritesTheRecord : Obligations.QBuildWritesTheRecord := by
  intro s n rel index track
  have hcheck : qBuildOperands s = true ↔ track ≤ 99 ∧ index ≤ 99 ∧ rel ≤ 449999 ∧ 0 ≤ n ∧ n ≤ 449999 := by
    rw [qBuildOperands, qOperandsOk_iff]
    omega
  refine ⟨fun h => ?_, fun h => ?_⟩
  · refine ⟨_, _, exec_qBuild_of_ok (hcheck.2 h), State.completed_finish _ .., State.sameFixed_store_finish s ..,
      holdsQRecord_of_bytes fun i hi => ?_, State.sameBytesOutside_store_finish s _ _ _ _ _ _⟩
    have hread := State.storeSubd_subd_of_mem s (p := qAt) (i := 12 + i) (bs := qRecord s.cfg.crc16Variant n.toNat rel
      (s.arg2.extractLsb' 16 4) track index) (by simp [qAt])
      (by rw [qRecord_length, qAt]; omega)
    rw [qAt, Nat.add_sub_cancel_left] at hread
    exact hread
  · rw [exec_qBuild_of_not_ok (mt hcheck.1 h), State.raise_eq_failed]
    rfl

/-- Settles O44: the record Q.BUILD leaves is one that Q.PARSE reads back. -/
theorem qParseReadsBackQBuild : Obligations.QParseReadsBackQBuild := by
  intro s t h he
  have hok := qBuildOperands_of_exec h he
  rw [qBuildOperands, qOperandsOk_iff] at hok
  obtain ⟨htrack, hindex, hrel, hlo, hhi⟩ := hok
  obtain ⟨t', crc, ht', _, hfixed, hrec, _⟩ :=
    (qBuildWritesTheRecord s).1 ⟨htrack, hindex, by omega, hlo, hhi⟩
  obtain rfl : t' = t := Host.Outcome.next.inj (ht'.symm.trans h)
  obtain ⟨harg, _⟩ := hfixed
  have hlba : t'.argS 0 = s.arg0.toInt := congrArg BitVec.toInt harg
  have hbyte {v : Nat} (hv : v < 256) : (BitVec.ofNat 8 v).toNat = v := by
    rw [BitVec.toNat_ofNat, Nat.mod_eq_of_lt hv]
  refine ⟨_, exec_qParse_of_record hrec htrack hindex (by omega) (by omega), ?_⟩
  simp only [State.finish_res0, State.finish_res1, State.finish_res2, State.finish_res3, qFlags_crcOk, qFlags_adr,
    qFlags_adrKnown, qFlags_converted, qFlags_control, qFlags_area, packBytes_low, packBytes_middle, packBytes_high,
    BitVec.ofNat_toNat, BitVec.setWidth_eq, hlba, true_and, and_true]
  exact ⟨hbyte (by omega), hbyte (by omega), hbyte (by omega), hbyte (by omega), hbyte (by omega), hbyte (by omega)⟩

/-- Settles O45: the 96 bytes part by part, and the interleaving of the window. -/
theorem subGenWritesTheWindow : Obligations.SubGenWritesTheWindow := by
  intro s lba stop rel index track
  have hcheck : subGenOperands s = true ↔
      track ≤ 99 ∧ index ≤ 99 ∧ rel ≤ 449999 ∧ 0 ≤ lba + 150 ∧ lba + 150 ≤ 449999 :=
    qOperandsOk_iff (lba + 150) rel track index
  refine ⟨fun h => ?_, fun h => ?_⟩
  · have hexec := exec_subGen s
    rw [if_pos (hcheck.2 h)] at hexec
    refine ⟨_, s.subGenCrc, hexec, State.completed_finish _ .., commandsKeepArguments _ _ _ hexec, ?_⟩
    obtain ⟨hsubd, hbits, hframe⟩ := subGen_window s s.subGenFlat_length
      (((s.storeSubd 0 s.subGenFlat).storeSubr (inter s.subGenFlat)).finish
        (subGenFlags (decide (s.arg0.toInt < s.pregapStop)) s.subGenCrc) 0#32 0#32 0#32) fun _ => rfl
    refine ⟨fun i hi => (hsubd i (by omega)).trans (s.subGenFlat_channelP hi),
      holdsQRecord_of_bytes fun i hi => (hsubd (12 + i) (by omega)).trans (s.subGenFlat_record hi),
      fun i hlo hhi => (hsubd i hhi).trans (s.subGenFlat_zeros hlo hhi), hbits, hframe⟩
  · rw [exec_subGen, if_neg (mt hcheck.1 h), State.raise_eq_failed]
    rfl

end Sys2Proof
end

section
/-! PROOFS. The family `44_sector_engine.md`: SEC.CHECK (R241 to R249) and SEC.BUILD (R250 to R255).

SEC.CHECK is its class and the check of the class. SEC.BUILD is four steps, and for each there are two kinds of lemma:
what it writes, and which bytes it leaves. What a step writes is read by later steps and kept by them, so the built
sector is consistent; and a consistent sector is a fixed point of every step, so a second build changes nothing. -/

namespace Sys2Proof.Machine

/-! ### Runs of `SEC` byte by byte -/

theorem State.secRun_eq_iff (s : State) (a : Nat) (bs : List Byte) :
    s.secRun a bs.length = bs ↔ ∀ i < bs.length, s.sec (a + i) = bs.getD i 0#8 := by
  constructor
  · intro h i hi
    rw [← State.secRun_getD s hi, h]
  · intro h
    refine list_eq_of_getD (by simp) fun i hi => ?_
    rw [State.secRun_length] at hi
    rw [State.secRun_getD s hi, h i hi]

theorem syncPattern_getD_middle : ∀ i, 1 ≤ i → i ≤ 10 → syncPattern.getD i 0#8 = 0xFF#8 := by
  intro i hlo hhi
  interval_cases i <;> rfl

/-- R241: the sync pattern byte by byte. -/
theorem syncHolds_iff (s : State) : s.SyncHolds ↔ ∀ i < 12, s.sec i = syncPattern.getD i 0#8 := by
  constructor
  · rintro ⟨hfirst, hmiddle, hlast⟩ i hi
    by_cases h0 : i = 0
    · rw [h0, hfirst]; rfl
    · by_cases h11 : i = 11
      · rw [h11, hlast]; rfl
      · rw [hmiddle i (by omega) (by omega), syncPattern_getD_middle i (by omega) (by omega)]
  · intro h
    exact ⟨h 0 (by decide), fun i hlo hhi => (h i (by omega)).trans (syncPattern_getD_middle i hlo hhi),
      h 11 (by decide)⟩

theorem hasSync_iff (s : State) : hasSync s = true ↔ s.SyncHolds := by
  rw [hasSync, beq_iff_eq, syncHolds_iff]
  have hrun := State.secRun_eq_iff s 0 syncPattern
  simp only [Nat.zero_add] at hrun
  exact hrun

/-! ### The class of a sector (R242) -/

section
variable {s : State}

theorem sectorClass_of_not_sync (h : ¬ s.SyncHolds) : sectorClass s = .unclassed := by
  rw [sectorClass, if_pos (Bool.eq_false_of_not_eq_true (mt (hasSync_iff s).1 h))]

theorem sectorClass_of_mode (h : s.SyncHolds) : sectorClass s =
    if s.sec 15 = 0x00#8 then .mode0
    else if s.sec 15 = 0x01#8 then .mode1
    else if s.sec 15 = 0x02#8 then if (s.sec 18).getLsbD 5 then .mode2Form2 else .mode2Form1
    else .unclassed := by
  rw [sectorClass, if_neg (by rw [(hasSync_iff s).2 h]; decide)]

theorem sectorClass_of_high_mode (h : 2 < (s.sec 15).toNat) : sectorClass s = .unclassed := by
  by_cases hsync : s.SyncHolds
  · have hne {b : Byte} (hb : b.toNat ≤ 2) : s.sec 15 ≠ b := fun heq => by rw [heq] at h; omega
    rw [sectorClass_of_mode hsync, if_neg (hne (by decide)), if_neg (hne (by decide)), if_neg (hne (by decide))]
  · exact sectorClass_of_not_sync hsync

theorem sectorClass_mode0 (h : s.SyncHolds) (hm : s.sec 15 = 0x00#8) : sectorClass s = .mode0 := by
  rw [sectorClass_of_mode h, if_pos hm]

theorem sectorClass_mode1 (h : s.SyncHolds) (hm : s.sec 15 = 0x01#8) : sectorClass s = .mode1 := by
  rw [sectorClass_of_mode h, hm]
  rfl

theorem sectorClass_form1 (h : s.SyncHolds) (hm : s.sec 15 = 0x02#8) (hf : (s.sec 18).getLsbD 5 = false) :
    sectorClass s = .mode2Form1 := by
  rw [sectorClass_of_mode h, hm, hf]
  rfl

theorem sectorClass_form2 (h : s.SyncHolds) (hm : s.sec 15 = 0x02#8) (hf : (s.sec 18).getLsbD 5 = true) :
    sectorClass s = .mode2Form2 := by
  rw [sectorClass_of_mode h, hm, hf]
  rfl

/-! ### SEC.CHECK by class -/

theorem exec_secCheck_of_unclassed (h : sectorClass s = .unclassed) :
    exec .secCheck s = .next (s.raise .invalidInput) := by
  rw [exec, execSecCheck, checkSector, h]

/-- SEC.CHECK with a class returns the report of the class's check. -/
theorem exec_secCheck_of_report {r : SectorReport} (h : checkSector s = some r) : exec .secCheck s = .next (s.finish
    (sectorFlags (classBits (sectorClass s)) r.edc r.eccQ r.eccP r.overall) r.computed r.stored 0#32) := by
  rw [exec, execSecCheck, h]

theorem exec_secCheck_mode0 (h : sectorClass s = .mode0) : exec .secCheck s = .next (s.finish
    (sectorFlags 1#3 none none none (some ((s.secRun 16 2336).all fun b => b == 0x00#8))) 0#32 0#32 0#32) := by
  rw [exec_secCheck_of_report (r := checkMode0 s) (by rw [checkSector, h]), h]
  rfl

/-- The check of the two classes that have an ECC, over the bytes of `SEC`. -/
theorem exec_secCheck_ecc {mode : TrackMode} {lo n p : Nat}
    (h : checkSector s = some (checkEcc mode ⟨lo, n, p⟩ s)) : exec .secCheck s = .next (s.finish
      (sectorFlags (classBits (sectorClass s)) (some (edc 0#32 (s.secBytes lo n) == s.secU32 p))
        (some (qMatches mode s)) (some (pMatches mode s))
        (some (pMatches mode s && qMatches mode s && (edc 0#32 (s.secBytes lo n) == s.secU32 p))))
      (edc 0#32 (s.secBytes lo n)) (s.secU32 p) 0#32) := by
  rw [exec_secCheck_of_report h, ← sectorEdc_eq lo n p, State.secU32_eq]
  rfl

/-- The check of the class that has an EDC and no ECC. -/
theorem exec_secCheck_edc {lo n p : Nat} (h : checkSector s = some (checkForm2 ⟨lo, n, p⟩ s)) :
    exec .secCheck s = .next (s.finish
      (sectorFlags (classBits (sectorClass s))
        (some (edc 0#32 (s.secBytes lo n) == s.secU32 p || s.secU32 p == 0#32)) none none
        (some (edc 0#32 (s.secBytes lo n) == s.secU32 p || s.secU32 p == 0#32)))
      (edc 0#32 (s.secBytes lo n)) (s.secU32 p) 0#32) := by
  rw [exec_secCheck_of_report h, ← sectorEdc_eq lo n p, State.secU32_eq]
  rfl

end

/-! ### What depends on the bytes of `SEC` alone -/

section
variable {s t : State}

theorem State.sec_congr (h : ∀ off, t.byte off = s.byte off) (i : Nat) : t.sec i = s.sec i := h _

theorem State.secWord_congr {p : Nat} (h : ∀ i, p ≤ i → i < p + 4 → t.sec i = s.sec i) :
    t.secWord p = s.secWord p := by
  rw [State.secWord, h p (by omega) (by omega), h (p + 1) (by omega) (by omega), h (p + 2) (by omega) (by omega),
    h (p + 3) (by omega) (by omega), State.secWord]

theorem State.secRun_congr {a n : Nat} (h : ∀ i, a ≤ i → i < a + n → t.sec i = s.sec i) :
    t.secRun a n = s.secRun a n := by
  rw [State.secRun_eq_map, State.secRun_eq_map]
  exact List.map_congr_left fun k hk => h (a + k) (by omega) (by have := List.mem_range.1 hk; omega)

theorem sectorEdc_congr {f : EdcField} (h : ∀ i < f.first + f.count, t.sec i = s.sec i) :
    sectorEdc f t = sectorEdc f s := by
  rw [sectorEdc, State.secRun_congr fun i _ hi => h i hi, sectorEdc]

theorem State.PFieldIs.congr {pair : Nat → Byte × Byte} (hs : s.PFieldIs pair) (h : ∀ i < 2248, t.sec i = s.sec i) :
    t.PFieldIs pair := by
  intro m hm
  rw [h _ (by omega), h _ (by omega)]
  exact hs m hm

theorem State.PHolds.congr {mode : TrackMode} (hs : s.PHolds mode) (h : ∀ i, t.sec i = s.sec i) : t.PHolds mode :=
  (State.PFieldIs.congr hs fun i _ => h i).holds fun i _ => h i

theorem State.QHolds.congr {mode : TrackMode} (hs : s.QHolds mode) (h : ∀ i, t.sec i = s.sec i) : t.QHolds mode := by
  refine State.QFieldIs.holds (s := s) (fun m hm => ?_) fun i _ => h i
  rw [h, h]
  exact hs m hm

end

/-- The bytes of a stored word, in the order of R67. -/
theorem leBytes_leWord (b0 b1 b2 b3 : Byte) : leBytes (leWord b0 b1 b2 b3) = [b0, b1, b2, b3] := by
  have hbyte (j : Nat) (b : Byte) (h : ∀ i < 8, (leWord b0 b1 b2 b3).getLsbD (j + i) = b.getLsbD i) :
      (leWord b0 b1 b2 b3).extractLsb' j 8 = b := by
    apply BitVec.eq_of_getLsbD_eq
    intro i hi
    rw [BitVec.getLsbD_extractLsb', h i hi]
    simp [hi]
  have h0 : ∀ i < 8, (leWord b0 b1 b2 b3).getLsbD (0 + i) = b0.getLsbD i := by
    intro i hi
    simp only [leWord, BitVec.getLsbD_append, Nat.zero_add, hi, if_true]
  have h1 : ∀ i < 8, (leWord b0 b1 b2 b3).getLsbD (8 + i) = b1.getLsbD i := by
    intro i hi
    simp only [leWord, BitVec.getLsbD_append, show ¬ 8 + i < 8 by omega, show 8 + i - 8 = i by omega, hi, if_true,
      if_false]
  have h2 : ∀ i < 8, (leWord b0 b1 b2 b3).getLsbD (16 + i) = b2.getLsbD i := by
    intro i hi
    simp only [leWord, BitVec.getLsbD_append, show ¬ 16 + i < 8 by omega, show ¬ 16 + i - 8 < 8 by omega,
      show 16 + i - 8 - 8 = i by omega, hi, if_true, if_false]
  have h3 : ∀ i < 8, (leWord b0 b1 b2 b3).getLsbD (24 + i) = b3.getLsbD i := by
    intro i hi
    simp only [leWord, BitVec.getLsbD_append, show ¬ 24 + i < 8 by omega, show ¬ 24 + i - 8 < 8 by omega,
      show ¬ 24 + i - 8 - 8 < 8 by omega, show 24 + i - 8 - 8 - 8 = i by omega, if_false]
  rw [leBytes, hbyte 0 b0 h0, hbyte 8 b1 h1, hbyte 16 b2 h2, hbyte 24 b3 h3]

theorem State.secRun_four (s : State) (p : Nat) : s.secRun p 4 = leBytes (s.secWord p) := by
  rw [State.secWord, leBytes_leWord, State.secRun_eq_map]
  rfl

/-! ### SEC.BUILD, step 1: sync and header (R251) -/

section
variable (mode : TrackMode) (n : Nat) (s : State)

theorem buildPrefix_length : (syncPattern ++ bcdTime (msf n) ++ [modeByte mode]).length = 16 := rfl

theorem buildPrefix_byte {off : Nat} (h : off < 0x1000 ∨ 0x1010 ≤ off) :
    (buildPrefix mode n s).byte off = s.byte off :=
  State.storeSec_byte_of_outside s (by rw [buildPrefix_length]; omega)

theorem buildPrefix_sec {i : Nat} (h : i < 16) :
    (buildPrefix mode n s).sec i = (syncPattern ++ bcdTime (msf n) ++ [modeByte mode]).getD i 0#8 :=
  State.storeSec_sec_of_mem s (Nat.zero_le i) (by rw [buildPrefix_length]; omega)

theorem buildPrefix_sync : (buildPrefix mode n s).SyncHolds := by
  rw [syncHolds_iff]
  intro i hi
  rw [buildPrefix_sec mode n s (by omega), List.append_assoc, List.getD_append _ _ _ _ hi]

/-! ### Step 2: the sub-header (R253) -/

theorem buildSubHeader_byte {off : Nat} (h : off < 0x1010 ∨ 0x1018 ≤ off) :
    (buildSubHeader mode s).byte off = s.byte off := by
  have hdup : (duplicateSubHeader s).byte off = s.byte off := by
    rw [duplicateSubHeader]
    cases s.cfg.subhdrDup with
    | secondToFirst => exact State.storeSec_byte_of_outside s (by rw [State.secRun_length]; omega)
    | firstToSecond => exact State.storeSec_byte_of_outside s (by rw [State.secRun_length]; omega)
  cases mode with
  | cdMode2Form1 | cdMode2Form2 => exact hdup
  | audio | cdMode1 | cdMode2Formless => rfl

variable {mode} in
theorem buildSubHeader_of_form (h : mode = .cdMode2Form1 ∨ mode = .cdMode2Form2) :
    buildSubHeader mode s = duplicateSubHeader s := by
  rcases h with rfl | rfl <;> rfl

variable {mode} in
theorem buildSubHeader_of_no_form (h : ¬ (mode = .cdMode2Form1 ∨ mode = .cdMode2Form2)) :
    buildSubHeader mode s = s := by
  cases mode with
  | cdMode2Form1 | cdMode2Form2 => simp at h
  | audio | cdMode1 | cdMode2Formless => rfl

/-- R253: the copy kept, and that both copies are then the same. -/
theorem duplicateSubHeader_sec {i : Nat} (h : i < 4) :
    ((duplicateSubHeader s).sec (16 + i) = match s.cfg.subhdrDup with
      | .secondToFirst => s.sec (20 + i)
      | .firstToSecond => s.sec (16 + i)) ∧
    (duplicateSubHeader s).sec (20 + i) = (duplicateSubHeader s).sec (16 + i) := by
  rw [duplicateSubHeader]
  cases s.cfg.subhdrDup with
  | secondToFirst =>
    have hcopy : (s.storeSec 16 (s.secRun 20 4)).sec (16 + i) = s.sec (20 + i) := by
      rw [State.storeSec_sec_of_mem s (by omega) (by rw [State.secRun_length]; omega), Nat.add_sub_cancel_left,
        State.secRun_getD s h]
    exact ⟨hcopy, by rw [hcopy, State.storeSec_sec_of_outside s (by rw [State.secRun_length]; omega)]⟩
  | firstToSecond =>
    have hkeep : (s.storeSec 20 (s.secRun 16 4)).sec (16 + i) = s.sec (16 + i) :=
      State.storeSec_sec_of_outside s (by omega)
    refine ⟨hkeep, ?_⟩
    rw [hkeep, State.storeSec_sec_of_mem s (by omega) (by rw [State.secRun_length]; omega), Nat.add_sub_cancel_left,
      State.secRun_getD s h]

/-! ### Step 3: the EDC and the reserved bytes (R252) -/

theorem buildEdc_cdMode1 : buildEdc .cdMode1 s =
    (s.storeSec 0x810 (leBytes (sectorEdc edcFieldMode1 s))).storeSec 0x814 (List.replicate 8 0x00#8) := rfl

variable {mode} in
theorem buildEdc_of_some {f : EdcField} (hf : edcField mode = some f) (hm : mode ≠ .cdMode1) :
    buildEdc mode s = s.storeSec f.stored (leBytes (sectorEdc f s)) := by
  rw [buildEdc, hf]
  exact if_neg hm

variable {mode} in
theorem buildEdc_of_none (hf : edcField mode = none) : buildEdc mode s = s := by
  rw [buildEdc, hf]

/-- Step 3 writes the EDC field, and in `CdMode1` the eight bytes behind it. -/
theorem buildEdc_byte {off : Nat} (h : ∀ f, edcField mode = some f → off < 0x1000 + f.stored ∨
    0x1000 + f.stored + (if mode = .cdMode1 then 12 else 4) ≤ off) : (buildEdc mode s).byte off = s.byte off := by
  cases hf : edcField mode with
  | none => rw [buildEdc_of_none s hf]
  | some f =>
    have hoff := h f hf
    by_cases hm : mode = .cdMode1
    · subst hm
      obtain rfl : edcFieldMode1 = f := Option.some.inj hf
      rw [if_pos rfl] at hoff
      simp only [edcFieldMode1] at hoff
      rw [buildEdc_cdMode1, State.storeSec_byte_of_outside _ (by rw [List.length_replicate]; omega),
        State.storeSec_byte_of_outside s (by rw [leBytes_length]; omega)]
    · rw [if_neg hm] at hoff
      rw [buildEdc_of_some s hf hm, State.storeSec_byte_of_outside s (by rw [leBytes_length]; omega)]

variable {mode} in
/-- Step 3 leaves everything before the stored EDC, and so every byte it covers. -/
theorem buildEdc_sec_of_lt {i : Nat} (h : ∀ f, edcField mode = some f → i < f.stored) :
    (buildEdc mode s).sec i = s.sec i :=
  buildEdc_byte mode s fun f hf => .inl (by have := h f hf; simp only [secBase]; omega)

variable {mode} in
/-- After step 3 the stored EDC is that of the sector. -/
theorem buildEdc_edc {f : EdcField} (hf : edcField mode = some f) :
    (buildEdc mode s).secWord f.stored = sectorEdc f (buildEdc mode s) := by
  have hcov : sectorEdc f (buildEdc mode s) = sectorEdc f s := by
    refine sectorEdc_congr fun i hi => buildEdc_sec_of_lt s fun f' hf' => ?_
    obtain rfl : f = f' := Option.some.inj (hf.symm.trans hf')
    exact hi.trans_le (edcField_bounds hf).1
  rw [hcov]
  by_cases hm : mode = .cdMode1
  · subst hm
    obtain rfl : edcFieldMode1 = f := Option.some.inj hf
    rw [buildEdc_cdMode1, State.storeSec_secWord_of_disjoint _ (.inl (by decide))]
    exact State.storeSec_secWord_self s _ _
  · rw [buildEdc_of_some s hf hm, State.storeSec_secWord_self]

theorem buildEdc_reserved {i : Nat} (hlo : 0x814 ≤ i) (hhi : i < 0x81C) : (buildEdc .cdMode1 s).sec i = 0x00#8 := by
  rw [buildEdc_cdMode1, State.storeSec_sec_of_mem _ hlo (by rw [List.length_replicate]; omega),
    List.getD_replicate (h := by omega)]

/-! ### Step 4: P and Q (R250, R166) -/

variable {mode} in
theorem buildEcc_of_hasEcc (h : hasEcc mode = true) : buildEcc mode s =
    (s.storeSec pFieldAt (pField mode s)).storeSec qFieldAt
      (qField mode (s.storeSec pFieldAt (pField mode s))) := if_pos h

variable {mode} in
theorem buildEcc_of_not_hasEcc (h : ¬ hasEcc mode = true) : buildEcc mode s = s := if_neg h

theorem buildEcc_byte {off : Nat} (h : hasEcc mode = true → off < 0x1000 + 2076 ∨ 0x1000 + 2352 ≤ off) :
    (buildEcc mode s).byte off = s.byte off := by
  by_cases hecc : hasEcc mode = true
  · have hoff := h hecc
    rw [buildEcc_of_hasEcc s hecc, State.storeSec_byte_of_outside _ (by rw [qField_length, qFieldAt]; omega),
      State.storeSec_byte_of_outside s (by rw [pField_length, pFieldAt]; omega)]
  · rw [buildEcc_of_not_hasEcc s hecc]

variable {mode} in
theorem buildEcc_sec_of_lt {i : Nat} (h : hasEcc mode = true → i < 2076) : (buildEcc mode s).sec i = s.sec i :=
  buildEcc_byte mode s fun hecc => .inl (by have := h hecc; simp only [secBase]; omega)

variable {mode} in
/-- After step 4 both parities are those of the sector: Q was computed over the P just written, and nothing follows
Q. -/
theorem buildEcc_holds (h : hasEcc mode = true) : (buildEcc mode s).PHolds mode ∧ (buildEcc mode s).QHolds mode := by
  rw [buildEcc_of_hasEcc s h]
  have hP := storeSec_pField mode s
  have hbefore : ∀ i < 2076, (s.storeSec pFieldAt (pField mode s)).sec i = s.sec i :=
    fun i hi => State.storeSec_sec_of_outside s (.inl hi)
  generalize s.storeSec pFieldAt (pField mode s) = u at hP hbefore ⊢
  have hafter : ∀ i < 2248, (u.storeSec qFieldAt (qField mode u)).sec i = u.sec i :=
    fun i hi => State.storeSec_sec_of_outside u (.inl hi)
  exact ⟨(hP.congr hafter).holds fun i hi => (hafter i (by omega)).trans (hbefore i hi),
    (storeSec_qField mode u).holds hafter⟩

/-! ### The whole sequence -/

theorem exec_secBuild_audio : exec (.secBuild .audio) s = .next (s.raise .unsupportedField) := rfl

variable {mode s}

theorem exec_secBuild_of_not_hasTime (hm : mode ≠ .audio) (h : ¬ hasTime (s.arg0.toInt + 150) = true) :
    exec (.secBuild mode) s = .next (s.raise .invalidInput) :=
  (if_neg hm).trans (if_neg h)

theorem exec_secBuild_of_hasTime (hm : mode ≠ .audio) (h : hasTime (s.arg0.toInt + 150) = true) :
    exec (.secBuild mode) s =
      .next ((buildSector mode (s.arg0.toInt + 150).toNat s).finish 0#32 0#32 0#32 0#32) :=
  (if_neg hm).trans (if_pos h)

/-- SEC.BUILD completes exactly on a mode with a header and a time that has one. -/
theorem secBuild_operands_of_exec {t : State} (h : exec (.secBuild mode) s = .next t) (he : t.err = 0#4) :
    mode ≠ .audio ∧ hasTime (s.arg0.toInt + 150) = true := by
  have hraise {k : ErrorKind} (hk : exec (.secBuild mode) s = .next (s.raise k)) : False := by
    rw [← Host.Outcome.next.inj (hk.symm.trans h), State.raise_err] at he
    exact errorCode_ne_zero _ he
  have hm : mode ≠ .audio := by
    rintro rfl
    exact hraise (exec_secBuild_audio s)
  exact ⟨hm, by_contra fun hno => hraise (exec_secBuild_of_not_hasTime hm hno)⟩

end

/-- Steps 3 and 4 leave the first 2064 bytes of the sector. -/
theorem buildEcc_buildEdc_sec_of_lt (mode : TrackMode) (s : State) {i : Nat} (h : i < 2064) :
    (buildEcc mode (buildEdc mode s)).sec i = s.sec i := by
  have hstored : ∀ f, edcField mode = some f → i < f.stored := by
    cases mode <;> rintro f ⟨⟩ <;> dsimp only <;> omega
  rw [buildEcc_sec_of_lt _ fun _ => by omega, buildEdc_sec_of_lt s hstored]

/-- The header of the built sector is that of step 1. -/
theorem buildSector_sec_header (mode : TrackMode) (n : Nat) (s : State) {i : Nat} (h : i < 16) :
    (buildSector mode n s).sec i = (buildPrefix mode n s).sec i := by
  rw [buildSector, buildEcc_buildEdc_sec_of_lt mode _ (by omega)]
  exact buildSubHeader_byte mode _ (.inl (by simp only [secBase]; omega))

/-- The sub-header of the built sector is the copy R253 keeps, twice. -/
theorem buildSector_subHeader {mode : TrackMode} (hm : mode = .cdMode2Form1 ∨ mode = .cdMode2Form2) (n : Nat)
    (s : State) {i : Nat} (h : i < 4) :
    ((buildSector mode n s).sec (16 + i) = match s.cfg.subhdrDup with
      | .secondToFirst => s.sec (20 + i)
      | .firstToSecond => s.sec (16 + i)) ∧
    (buildSector mode n s).sec (20 + i) = (buildSector mode n s).sec (16 + i) := by
  have hkeep (j : Nat) (hj : 16 ≤ j) : (buildPrefix mode n s).sec j = s.sec j :=
    buildPrefix_byte mode n s (.inr (by simp only [secBase]; omega))
  obtain ⟨hcopy, hboth⟩ := duplicateSubHeader_sec (buildPrefix mode n s) h
  rw [hkeep _ (by omega), hkeep _ (by omega)] at hcopy
  rw [buildSector, buildSubHeader_of_form _ hm, buildEcc_buildEdc_sec_of_lt mode _ (by omega),
    buildEcc_buildEdc_sec_of_lt mode _ (by omega)]
  exact ⟨hcopy, hboth⟩

/-- The stored EDC of the built sector is that of the sector. -/
theorem buildSector_edc {mode : TrackMode} {f : EdcField} (hf : edcField mode = some f) (n : Nat) (s : State) :
    (buildSector mode n s).secWord f.stored = sectorEdc f (buildSector mode n s) := by
  have hroom : hasEcc mode = true → f.stored + 4 ≤ 2076 := by
    cases mode <;> cases hf <;> decide
  have hkeep (i : Nat) (hi : i < f.stored + 4) :
      (buildSector mode n s).sec i = (buildEdc mode (buildSubHeader mode (buildPrefix mode n s))).sec i :=
    buildEcc_sec_of_lt _ fun hecc => hi.trans_le (hroom hecc)
  have hcov := (edcField_bounds hf).1
  rw [State.secWord_congr fun i _ hi => hkeep i hi, buildEdc_edc _ hf, sectorEdc_congr fun i hi => hkeep i (by omega)]

/-! R254: the indices each step writes are among those SEC.BUILD may write in the mode. -/

theorem builtIndex_header {mode : TrackMode} (hm : mode ≠ .audio) {i : Nat} (h : i < 16) : builtIndex mode i := by
  cases mode with
  | audio => exact absurd rfl hm
  | cdMode2Formless => exact h
  | cdMode1 | cdMode2Form1 | cdMode2Form2 => exact .inl (by omega)

theorem builtIndex_subHeader {mode : TrackMode} (hm : mode = .cdMode2Form1 ∨ mode = .cdMode2Form2) {i : Nat}
    (h : i < 24) : builtIndex mode i := by
  rcases hm with rfl | rfl
  exacts [.inl h, .inl h]

theorem builtIndex_edc {mode : TrackMode} {f : EdcField} (hf : edcField mode = some f) {i : Nat} (hlo : f.stored ≤ i)
    (hhi : i < f.stored + if mode = .cdMode1 then 12 else 4) : builtIndex mode i := by
  cases mode with
  | audio | cdMode2Formless => cases hf
  | cdMode1 | cdMode2Form1 | cdMode2Form2 =>
    cases hf
    simp only [reduceCtorEq, if_true, if_false] at hlo hhi
    exact .inr (by omega)

theorem builtIndex_ecc {mode : TrackMode} (h : hasEcc mode = true) {i : Nat} (hlo : 2076 ≤ i) (hhi : i < 2352) :
    builtIndex mode i := by
  rcases (hasEcc_iff mode).1 h with rfl | rfl
  exacts [.inr (by omega), .inr (by omega)]

/-- R254: every byte SEC.BUILD may not write stays. -/
theorem buildSector_byte {mode : TrackMode} (hm : mode ≠ .audio) (n : Nat) (s : State) {off : Nat}
    (h : ∀ i, builtIndex mode i → off ≠ 0x1000 + i) : (buildSector mode n s).byte off = s.byte off := by
  have hrange {lo hi : Nat} (hin : ∀ i, lo ≤ i → i < hi → builtIndex mode i) :
      off < 0x1000 + lo ∨ 0x1000 + hi ≤ off := by
    by_contra hno
    exact h (off - 0x1000) (hin _ (by omega) (by omega)) (by omega)
  have hheader : off < 0x1000 ∨ 0x1010 ≤ off :=
    hrange (lo := 0) (hi := 16) fun i _ hi => builtIndex_header hm hi
  have hsub : (buildSubHeader mode (buildPrefix mode n s)).byte off = (buildPrefix mode n s).byte off := by
    by_cases hform : mode = .cdMode2Form1 ∨ mode = .cdMode2Form2
    · exact buildSubHeader_byte mode _ (hrange (lo := 16) (hi := 24) fun i _ hi => builtIndex_subHeader hform hi)
    · rw [buildSubHeader_of_no_form _ hform]
  have hedc (f : EdcField) (hf : edcField mode = some f) : off < 0x1000 + f.stored ∨
      0x1000 + f.stored + (if mode = .cdMode1 then 12 else 4) ≤ off := by
    rw [Nat.add_assoc]
    exact hrange fun i hlo hi => builtIndex_edc hf hlo hi
  have hecc (h : hasEcc mode = true) : off < 0x1000 + 2076 ∨ 0x1000 + 2352 ≤ off :=
    hrange fun i hlo hi => builtIndex_ecc h hlo hi
  rw [buildSector, buildEcc_byte mode _ hecc, buildEdc_byte mode _ hedc, hsub, buildPrefix_byte mode n s hheader]

/-! ### A consistent sector is a fixed point of every step -/

section
variable {mode : TrackMode} {n : Nat} {s : State}

theorem buildPrefix_of_held
    (hheader : ∀ i < 16, s.sec i = (syncPattern ++ bcdTime (msf n) ++ [modeByte mode]).getD i 0#8) (off : Nat) :
    (buildPrefix mode n s).byte off = s.byte off := by
  refine State.storeSec_byte_of_held s ((State.secRun_eq_iff s 0 _).2 fun i hi => ?_) off
  rw [Nat.zero_add, hheader i hi]

theorem buildSubHeader_of_held
    (hcopy : mode = .cdMode2Form1 ∨ mode = .cdMode2Form2 → ∀ i < 4, s.sec (20 + i) = s.sec (16 + i)) (off : Nat) :
    (buildSubHeader mode s).byte off = s.byte off := by
  by_cases hform : mode = .cdMode2Form1 ∨ mode = .cdMode2Form2
  · have hrun : s.secRun 20 4 = s.secRun 16 4 := by
      rw [State.secRun_eq_map, State.secRun_eq_map]
      exact List.map_congr_left fun i hi => hcopy hform i (List.mem_range.1 hi)
    rw [buildSubHeader_of_form s hform, duplicateSubHeader]
    cases s.cfg.subhdrDup with
    | secondToFirst => exact State.storeSec_byte_of_held s (by rw [State.secRun_length, hrun]) off
    | firstToSecond => exact State.storeSec_byte_of_held s (by rw [State.secRun_length, hrun]) off
  · rw [buildSubHeader_of_no_form s hform]

theorem buildEdc_of_held (hedc : ∀ f, edcField mode = some f → s.secWord f.stored = sectorEdc f s)
    (hzero : mode = .cdMode1 → ∀ i, 0x814 ≤ i → i < 0x81C → s.sec i = 0x00#8) (off : Nat) :
    (buildEdc mode s).byte off = s.byte off := by
  cases hf : edcField mode with
  | none => rw [buildEdc_of_none s hf]
  | some f =>
    have hstore (k : Nat) : (s.storeSec f.stored (leBytes (sectorEdc f s))).byte k = s.byte k :=
      State.storeSec_byte_of_held s (by rw [leBytes_length, State.secRun_four, hedc f hf]) k
    by_cases hm : mode = .cdMode1
    · subst hm
      obtain rfl : edcFieldMode1 = f := Option.some.inj hf
      refine (State.storeSec_byte_of_held _ ((State.secRun_eq_iff _ _ _).2 fun i hi => ?_) off).trans (hstore off)
      rw [List.length_replicate] at hi
      have hbyte : s.sec (0x814 + i) = (List.replicate 8 0x00#8).getD i 0#8 := by
        rw [hzero rfl _ (by omega) (by omega), List.getD_replicate (h := hi)]
      exact (State.sec_congr hstore _).trans hbyte
    · rw [buildEdc_of_some s hf hm, hstore]

theorem buildEcc_of_held (hecc : hasEcc mode = true → s.PHolds mode ∧ s.QHolds mode) (off : Nat) :
    (buildEcc mode s).byte off = s.byte off := by
  by_cases h : hasEcc mode = true
  · obtain ⟨hP, hQ⟩ := hecc h
    have hstore (k : Nat) : (s.storeSec pFieldAt (pField mode s)).byte k = s.byte k :=
      State.storeSec_byte_of_held s (by
        rw [pField_length]; exact ((pField_eq_secRun_iff mode s s).2 hP).symm) k
    have hQ' := hQ.congr (State.sec_congr hstore)
    rw [buildEcc_of_hasEcc s h, State.storeSec_byte_of_held _ (by
      rw [qField_length]; exact ((qField_eq_secRun_iff mode _ _).2 hQ').symm), hstore]
  · rw [buildEcc_of_not_hasEcc s h]

/-- A sector that holds what SEC.BUILD writes is not changed by it. -/
theorem buildSector_of_consistent
    (hheader : ∀ i < 16, s.sec i = (syncPattern ++ bcdTime (msf n) ++ [modeByte mode]).getD i 0#8)
    (hcopy : mode = .cdMode2Form1 ∨ mode = .cdMode2Form2 → ∀ i < 4, s.sec (20 + i) = s.sec (16 + i))
    (hedc : ∀ f, edcField mode = some f → s.secWord f.stored = sectorEdc f s)
    (hzero : mode = .cdMode1 → ∀ i, 0x814 ≤ i → i < 0x81C → s.sec i = 0x00#8)
    (hecc : hasEcc mode = true → s.PHolds mode ∧ s.QHolds mode) (off : Nat) :
    (buildSector mode n s).byte off = s.byte off := by
  have h1 := buildPrefix_of_held hheader
  have hsec1 := State.sec_congr h1
  have h2 (k : Nat) : (buildSubHeader mode (buildPrefix mode n s)).byte k = s.byte k := by
    rw [buildSubHeader_of_held (fun hform i hi => by rw [hsec1, hsec1, hcopy hform i hi]), h1]
  have hsec2 := State.sec_congr h2
  have h3 (k : Nat) : (buildEdc mode (buildSubHeader mode (buildPrefix mode n s))).byte k = s.byte k := by
    rw [buildEdc_of_held (fun f hf => ?_) fun hm i hlo hhi => by rw [hsec2, hzero hm i hlo hhi], h2]
    rw [State.secWord_congr fun i _ _ => hsec2 i, hedc f hf, sectorEdc_congr fun i _ => hsec2 i]
  have hsec3 := State.sec_congr h3
  rw [buildSector, buildEcc_of_held fun h => ⟨(hecc h).1.congr hsec3, (hecc h).2.congr hsec3⟩, h3]

end

end Sys2Proof.Machine

namespace Sys2Proof

open Machine

/-! ### The obligations -/

/-- Settles O52: without a class there is no check; in Mode 0 the flag is that of the zero bytes. -/
theorem secCheckUnclassedAndMode0 : Obligations.SecCheckUnclassedAndMode0 := by
  refine fun s => ⟨fun h => ?_, fun hsync hmode => ?_⟩
  · have hclass : sectorClass s = .unclassed := h.elim sectorClass_of_not_sync sectorClass_of_high_mode
    rw [exec_secCheck_of_unclassed hclass, State.raise_eq_failed]
    rfl
  · have hzero : ((s.secRun 16 2336).all fun b => b == 0x00#8) = true ↔
        ∀ i, 16 ≤ i → i < 2352 → s.sec i = 0x00#8 := by
      rw [List.all_eq_true, State.secRun_eq_map, List.forall_mem_map]
      simp only [List.mem_range, beq_iff_eq]
      constructor
      · intro h i hlo hhi
        have hi := h (i - 16) (by omega)
        rwa [Nat.add_sub_cancel' hlo] at hi
      · exact fun h k hk => h (16 + k) (by omega) (by omega)
    refine ⟨_, hzero, ?_⟩
    rw [exec_secCheck_mode0 (sectorClass_mode0 hsync hmode), State.finish_eq]
    cases (s.secRun 16 2336).all fun b => b == 0x00#8 <;> rfl

/-- Settles O53: both classes have the same check over their own mode and EDC field. -/
theorem secCheckMode1AndForm1 : Obligations.SecCheckMode1AndForm1 := by
  intro s mode cls lo n p hsync hclass
  have hcheck : checkSector s = some (checkEcc mode ⟨lo, n, p⟩ s) ∧ classBits (sectorClass s) = cls := by
    rcases hclass with ⟨rfl, hmode, rfl, hfield⟩ | ⟨rfl, hmode, hform, rfl, hfield⟩
    · obtain ⟨rfl, rfl, rfl⟩ := hfield
      rw [checkSector, sectorClass_mode1 hsync hmode]
      exact ⟨rfl, rfl⟩
    · obtain ⟨rfl, rfl, rfl⟩ := hfield
      rw [checkSector, sectorClass_form1 hsync hmode hform]
      exact ⟨rfl, rfl⟩
  obtain ⟨hreport, hcls⟩ := hcheck
  refine ⟨pMatches mode s, qMatches mode s, edc 0#32 (s.secBytes lo n) == s.secU32 p, pMatches_iff mode s,
    qMatches_iff mode s, beq_iff_eq, ?_⟩
  rw [exec_secCheck_ecc hreport, hcls]
  rfl

/-- Settles O54: the EDC alone, a stored 0 passing. -/
theorem secCheckForm2 : Obligations.SecCheckForm2 := by
  intro s hsync hmode hform
  have hclass := sectorClass_form2 hsync hmode hform
  have hreport : checkSector s = some (checkForm2 ⟨0x010, 2332, 0x92C⟩ s) := by
    rw [checkSector, hclass]
    rfl
  rw [exec_secCheck_edc hreport, hclass, State.finish_eq]
  have hpass : (edc 0#32 (s.secBytes 0x010 2332) == s.secU32 0x92C || s.secU32 0x92C == 0#32) = true ↔
      edc 0#32 (s.secBytes 0x010 2332) = s.secU32 0x92C ∨ s.secU32 0x92C = 0#32 := by
    rw [Bool.or_eq_true, beq_iff_eq, beq_iff_eq]
  rw [← if_congr hpass rfl rfl]
  cases edc 0#32 (s.secBytes 0x010 2332) == s.secU32 0x92C || s.secU32 0x92C == 0#32 <;> rfl

/-- Settles O55: each clause is the lemma on the step that writes it. -/
theorem secBuildLeavesAConsistentSector : Obligations.SecBuildLeavesAConsistentSector := by
  refine fun mode s => ⟨fun hm => ?_, fun hm hout => ?_, fun hm hlo hhi => ?_⟩
  · rw [hm, exec_secBuild_audio, State.raise_eq_failed]
    rfl
  · rw [exec_secBuild_of_not_hasTime hm (by rw [hasTime_iff]; omega), State.raise_eq_failed]
    rfl
  · have hexec := exec_secBuild_of_hasTime hm ((hasTime_iff (s.arg0.toInt + 150)).2 (by omega))
    generalize hn : (s.arg0.toInt + 150).toNat = n at hexec
    have hheader {i : Nat} (hi : i < 16) : (buildSector mode n s).sec i =
        (syncPattern ++ bcdTime (msf n) ++ [modeByte mode]).getD i 0#8 :=
      (buildSector_sec_header mode n s hi).trans (buildPrefix_sec mode n s hi)
    have hsync : (buildSector mode n s).SyncHolds := by
      rw [syncHolds_iff]
      intro i hi
      rw [buildSector_sec_header mode n s (by omega), (syncHolds_iff _).1 (buildPrefix_sync mode n s) i hi]
    refine ⟨_, n, by omega, hexec, State.completed_finish _ .., commandsKeepArguments _ _ _ hexec, hsync,
      hheader (by decide), hheader (by decide), hheader (by decide), (hheader (by decide)).trans ?_,
      fun hform i hi => buildSector_subHeader hform n s hi, fun lo k p hrow => ?_,
      fun hmode1 i hlo' hhi' => ?_, fun hmode => ?_, fun off hoff => buildSector_byte hm n s hoff⟩
    · cases mode <;> rfl
    · rw [← sectorEdc_eq lo k p]
      exact buildSector_edc (edcField_of_mem_edcRows hrow) n s
    · subst hmode1
      have hkeep : (buildSector .cdMode1 n s).sec i =
          (buildEdc .cdMode1 (buildSubHeader .cdMode1 (buildPrefix .cdMode1 n s))).sec i :=
        buildEcc_sec_of_lt _ fun _ => by omega
      exact hkeep.trans (buildEdc_reserved _ hlo' hhi')
    · exact buildEcc_holds _ ((hasEcc_iff mode).2 hmode)

/-- Settles O56: the sector SEC.BUILD leaves has its class, and every check of the class passes. -/
theorem builtSectorChecks : Obligations.BuiltSectorChecks := by
  intro mode s t h he
  obtain ⟨hm, htime⟩ := secBuild_operands_of_exec h he
  obtain ⟨hlo, hhi⟩ := (hasTime_iff _).1 htime
  obtain ⟨_, _, hbuilt⟩ := secBuildLeavesAConsistentSector mode s
  obtain ⟨t', n, _, ht', _, _, hsync, _, _, _, hmode, _, hedc, _, hparity, _⟩ := hbuilt hm (by omega) (by omega)
  obtain rfl : t' = t := Host.Outcome.next.inj (ht'.symm.trans h)
  refine ⟨fun hm1 => ?_, fun hf1 hbit => ?_, fun hf2 hbit => ?_⟩
  · subst hm1
    obtain ⟨hP, hQ⟩ := hparity (.inl rfl)
    have hE := hedc 0x000 2064 0x810 (by simp [edcRows])
    obtain ⟨pm, qm, em, hp, hq, hem, hexec⟩ := secCheckMode1AndForm1 t' .cdMode1 2#3 0x000 2064 0x810 hsync
      (.inl ⟨rfl, hmode, rfl, rfl⟩)
    exact ⟨_, hexec, by rw [hp.2 hP, hq.2 hQ, hem.2 hE.symm]; rfl⟩
  · subst hf1
    obtain ⟨hP, hQ⟩ := hparity (.inr rfl)
    have hE := hedc 0x010 2056 0x818 (by simp [edcRows])
    obtain ⟨pm, qm, em, hp, hq, hem, hexec⟩ := secCheckMode1AndForm1 t' .cdMode2Form1 3#3 0x010 2056 0x818 hsync
      (.inr ⟨rfl, hmode, hbit, rfl, rfl⟩)
    exact ⟨_, hexec, by rw [hp.2 hP, hq.2 hQ, hem.2 hE.symm]; rfl⟩
  · subst hf2
    have hE := hedc 0x010 2332 0x92C (by simp [edcRows])
    refine ⟨_, secCheckForm2 t' hsync hmode hbit, ?_⟩
    dsimp only
    rw [if_pos (Or.inl hE.symm)]

/-- Settles O57: the built sector is consistent, and the second run has the same operands. -/
theorem secBuildIsIdempotent : Obligations.SecBuildIsIdempotent := by
  intro mode s t h he
  obtain ⟨hm, htime⟩ := secBuild_operands_of_exec h he
  obtain ⟨harg, _⟩ := commandsKeepArguments _ _ _ h
  rw [exec_secBuild_of_hasTime hm htime] at h
  generalize hn : (s.arg0.toInt + 150).toNat = n at h
  have hsec (i : Nat) : t.sec i = (buildSector mode n s).sec i := by
    rw [← Host.Outcome.next.inj h]
    rfl
  have hexec := exec_secBuild_of_hasTime (s := t) hm (by rw [harg]; exact htime)
  rw [harg, hn] at hexec
  refine ⟨_, hexec, buildSector_of_consistent (fun i hi => ?_) (fun hform i hi => ?_) (fun f hf => ?_)
    (fun hm1 i hlo hhi => ?_) (fun hecc => ?_)⟩
  · rw [hsec, buildSector_sec_header mode n s hi, buildPrefix_sec mode n s hi]
  · rw [hsec, hsec, (buildSector_subHeader hform n s hi).2]
  · rw [State.secWord_congr fun i _ _ => hsec i, buildSector_edc hf, sectorEdc_congr fun i _ => hsec i]
  · subst hm1
    rw [hsec, buildSector, buildEcc_sec_of_lt _ fun _ => by omega, buildEdc_reserved _ hlo hhi]
  · obtain ⟨hP, hQ⟩ := buildEcc_holds (buildEdc mode (buildSubHeader mode (buildPrefix mode n s))) hecc
    exact ⟨hP.congr hsec, hQ.congr hsec⟩

end Sys2Proof
end
